-- ==== Sys2Proof/Word.lean ====
section
/-! DEFINITION. The plain types of the NF-240 model: bytes on its ports, kilowatts, times. -/

namespace Sys2Proof

/-- One byte of a station or loop frame (09_frame_and_record_formats.md). -/
abbrev Byte := BitVec 8

/-- Whole kilowatts; sums of power are integers without bound (00_scope.md, Conventions, Power). -/
abbrev Kw := Nat

/-- A time in milliseconds, fine enough for every timer the manual gives (log 3). -/
abbrev Ms := Nat

/-- A timer: its time remaining in milliseconds, or idle (absent). -/
abbrev Timer := Option Ms

/-- A feeder number, 0 to 23. -/
abbrev FeederNo := Fin 24

/-- A genset number, 0 to 5. -/
abbrev GensetNo := Fin 6

/-- An array number, 0 to 7. -/
abbrev ArrayNo := Fin 8

/-- A Permit Table slot number, 0 to 31. -/
abbrev Slot := Fin 32

/-- A loop address less one, 0 to 31: the index of its Unit Directory entry. -/
abbrev Addr := Fin 32

end Sys2Proof
end

