-- ==== Sys2Proof/Syntax.lean ====
section
/-! DEFINITION. The commands of the NF-240: one constructor of `Instr` per row of spec/opcode_table.json, with what
each row carries. Station commands carry the raw numbers of 09 section 9.6, whose ranges their meanings test; events
inside the part carry record numbers that are in range by type. -/

namespace Sys2Proof

/-! ## Names and values the commands carry -/

/-- A handle: a Permit Table slot and a generation, each a byte as carried (R19, 09 section 9.2). -/
structure Handle where
  slot : Nat
  gen  : Nat
  deriving DecidableEq, Repr

/-- The island states (R137). -/
inductive IslandState where
  | setup | run | dark | restart | restore
  deriving DecidableEq, Repr

/-- The blocks that place orders in slots (07 section 7.4). -/
inductive Block where
  | ae | se | gs | cu
  deriving DecidableEq, Repr

/-- The contact states (07 section 7.5). -/
inductive Contact where
  | unknown | inContact | silent | lost
  deriving DecidableEq, Repr

/-- The refusal reasons, shared by REFUSED replies and DENY orders (08 section 8.3). -/
inductive Reason where
  | protected_ | noHeadroom | tableFull | queueFull | staleHandle | wrongState | slotBusy | bankActive
  | notRunning | restoring | standDown | targetBusy | outOfRange | config | waitExpired | retired
  deriving DecidableEq, Repr

/-- The 15 notices (08 section 8.4), in the order of their bits (09 section 9.6). -/
inductive Notice where
  | shortfall | ladderExhausted | revokeFailed | unitLost | unpermittedClose | overdraw | startFailed
  | gensetTripped | curtailEngaged | curtailReleased | islandState | restartFailed | foreignLive
  | standDownComplete | queueRefusal
  deriving DecidableEq, Repr

/-- The two sequencer lanes (R88). -/
inductive LaneId where
  | a | b
  deriving DecidableEq, Repr

/-- The record a loop address speaks for (R159). -/
inductive UnitRec where
  | feeder (f : FeederNo)
  | genset (g : GensetNo)
  | array (a : ArrayNo)
  deriving DecidableEq, Repr

/-- An order with its parameters (07 section 7.4; 09 section 9.3). -/
inductive Order where
  /-- with a mark of a release GRANT, apart from a confirming one (R36, R39), which the AE notes and no frame carries
  (log 46) -/
  | grant (h : Handle) (kw : Kw) (release : Bool)
  | wait (h : Handle) (deadline : Ms)
  | deny (h : Option Handle) (reason : Reason)
  /-- with the permit whose revocation placed it, which the SE notes and no frame carries (R60, R62, log 49); `none` for
  an OPEN that belongs to no permit (R71, R72) -/
  | open_ (revokes : Option Handle)
  | crank
  | sync
  | close
  | deadclose
  | ramp (percent : Nat)
  | unload
  | openBreaker
  | stop
  | hold (cap : Kw) (length : Nat)
  | release
  deriving DecidableEq, Repr

/-- An order's kind alone: what a withdrawal names (R168). -/
inductive OrderKind where
  | grant | wait | deny | open_ | crank | sync | close | deadclose | ramp | unload | openBreaker | stop | hold | release
  deriving DecidableEq, Repr

/-- An order as a slot holds it (R159). -/
structure SlotOrder where
  order    : Order
  owner    : Block
  urgent   : Bool
  number   : Nat
  attempts : Nat
  deriving DecidableEq, Repr

/-- A placement: the record, the order, its owner and its urgent mark (R167). -/
structure Placement where
  target : UnitRec
  order  : Order
  owner  : Block
  urgent : Bool
  deriving DecidableEq, Repr

/-- A withdrawal: the record, the order kind and the withdrawing block (R168). -/
structure Withdrawal where
  target : UnitRec
  kind   : OrderKind
  by_    : Block
  deriving DecidableEq, Repr

/-- Why a block is told that an order of its own is gone: replaced or withdrawn by another block (R167, R168), emptied
on loss of contact or a change of binding (R160, R172), or dropped unplaced (R167). -/
inductive GoneCause where
  | superseded | emptied | dropped
  deriving DecidableEq, Repr

/-- The answer of a unit, with the sent order it belongs to (R170). The unit's reason byte is kept in no record. -/
structure Answered where
  sent     : SlotOrder
  accepted : Bool
  deriving DecidableEq, Repr

/-- A feeder report (07 section 7.6): breaker CLOSED or OPEN, LOCAL mark, draw in kW. -/
structure FeederReport where
  closed  : Bool
  isLocal : Bool
  draw    : Kw
  deriving DecidableEq, Repr

/-- A genset report: seven marks and the output (07 section 7.6). -/
structure GensetReport where
  running : Bool := false
  voltsOk : Bool := false
  warm    : Bool := false
  ready   : Bool := false
  synced  : Bool := false
  closed  : Bool := false
  tripped : Bool := false
  output  : Kw := 0
  deriving DecidableEq, Repr

/-- What a feeder REPLY delivers to one block: the contact state before it, the report, and the answer where it belongs
to that block's order (R175). -/
structure FeederDelivery where
  feeder : FeederNo
  was    : Contact
  report : FeederReport
  answer : Option Answered
  deriving DecidableEq, Repr

/-- What a genset REPLY delivers to the GS (R175). -/
structure GensetDelivery where
  genset : GensetNo
  was    : Contact
  report : GensetReport
  answer : Option Answered
  deriving DecidableEq, Repr

/-- What an array REPLY delivers to the CU (R175). -/
structure ArrayDelivery where
  array  : ArrayNo
  was    : Contact
  output : Kw
  answer : Option Answered
  deriving DecidableEq, Repr

/-- A DRAW REQUEST claim (R22). -/
structure DrawClaim where
  handle    : Option Handle
  kw        : Nat
  mayWait   : Bool
  waitLimit : Nat
  deriving DecidableEq, Repr

/-- The AE's answer to a walk claim: the handle, or none where it was refused (R153), with the feeder and the kW of the
claim (log 26). -/
structure WalkAnswer where
  feeder : FeederNo
  kw     : Kw
  permit : Option Handle
  deriving DecidableEq, Repr

/-- The claims the CU offers (R128, R126). -/
inductive ClaimKind where
  | raise | release
  deriving DecidableEq, Repr

/-- The sources of needs (R12). -/
inductive NeedSource where
  | ae | ic
  deriving DecidableEq, Repr

/-- The causes of a run's failure (R96). -/
inductive FailCause where
  | stepLimit | illegalStep | readyLost | trip | contactLost | aborted | busLost
  deriving DecidableEq, Repr

/-- A lead's outcome as the GS tells it to the IC (R148). -/
inductive LeadOutcome where
  | online (g : GensetNo)
  | failed (g : GensetNo) (cause : FailCause)
  | refused (g : GensetNo)
  deriving DecidableEq, Repr

/-- What an adoption was asked for: the RUN command, a live bus in DARK, or a live decision (R77). -/
inductive AdoptionWhy where
  | run | dark | decision
  deriving DecidableEq, Repr

/-- How a naming ended (R69). -/
inductive NamingEnd where
  | made | refused | notOffered
  deriving DecidableEq, Repr

/-- The two quiet marks (R137). -/
inductive QuietMark where
  | release | sequencer
  deriving DecidableEq, Repr

/-- The 30 settings, in the order of their numbers (08 section 8.6). -/
inductive Setting where
  | missedLimit | replyWindow | interFrameGap | baudRate | baseReserve | cloudFactor | floorMargin | startLevel
  | startDemandDelay | autoStop | stopLevel | stopDelay | restAfterFailure | readyWait | stepGuard | defaultWaitLimit
  | restoreMargin | minimumOffTime | revokeLimit | overdrawTolerance | deadBusConfirm | liveBusConfirm | restartHoldoff
  | autoRestart | restartRounds | holdLength | engageLevel | releaseLevel | releaseDelay | sharePeriod
  deriving DecidableEq, Repr

/-- A posting as an event of its own: the changes of R7, R8 and R10 with the record changes they belong to. A source
takes its other postings inside its own event, as R1 requires (log 6). -/
inductive Posting where
  /-- claimed: a permit in QUEUED or SHED is offered as an admission (R7) -/
  | admission (slot : Slot)
  /-- claimed: a rise of a STAGING or GRANTED permit's requested kW (R7) -/
  | chargeIncrease (slot : Slot) (kw : Kw)
  /-- claimed: an exposure raise, or a release claim, array by array (R8, R126) -/
  | exposureRaise (kind : ClaimKind) (needs : List (ArrayNo × Kw))
  /-- forced: a feeder draw report (R11) -/
  | drawReport (f : FeederNo) (kw : Kw)
  /-- forced: a permit passes to FREE (R10) -/
  | permitFreed (slot : Slot)
  /-- forced: a permit's requested kW is cut (R10) -/
  | permitCut (slot : Slot) (kw : Kw)
  /-- forced: an OFF or UNKNOWN genset is adopted ONLINE (R10) -/
  | gensetOnline (g : GensetNo)
  /-- forced: an ONLINE genset leaves ONLINE by a trip, in a lane or not (R10) -/
  | gensetOffline (g : GensetNo)
  /-- forced: a HELD array lapses (R10) -/
  | arrayLapsed (a : ArrayNo)
  /-- forced: one of the four account settings is written (R5) -/
  | setting (st : Setting) (value : Nat)
  /-- forced: a need is placed, replaced or cleared (R12) -/
  | need (source : NeedSource) (kw : Option Kw)
  deriving DecidableEq, Repr

/-- A genset profile as SET GENSET carries it (R74): FFh for an absent dark slot is `none`. -/
structure ProfileFields where
  rated       : Nat
  minimum     : Nat
  step        : Nat
  merit       : Nat
  primary     : Nat
  dark        : Option Nat
  maxAttempts : Nat
  minRun      : Nat
  coolDown    : Nat
  deriving DecidableEq, Repr

/-! ## The commands -/

/-- One constructor per row of spec/opcode_table.json, in the table's order. -/
inductive Instr where
  /-- TRANSACTION_END: CS rises after these whole bytes were received on MOSI (R179) -/
  | transactionEnd (mosi : List Byte)
  /-- BUSY_TRANSACTION: CS falls while READY is low (R181) -/
  | busyTransaction
  /-- NULL (R180) -/
  | null
  /-- LOOK_UP (R186) -/
  | lookUp (kind index : Nat)
  /-- READ_ACCOUNT (R188) -/
  | readAccount
  /-- READ_NOTICES (R185) -/
  | readNotices
  /-- SET_SETTING (R189) -/
  | setSetting (number value : Nat)
  /-- GET_SETTING (R190) -/
  | getSetting (number : Nat)
  /-- SOFT_RESET (R192) -/
  | softReset
  /-- RESERVE (R27) -/
  | reserve (kw cls : Nat) (mayWait : Bool) (expiry : Option Nat)
  /-- ADJUST (R29) -/
  | adjust (h : Handle) (kw : Nat)
  /-- RETIRE (R30) -/
  | retire (h : Handle)
  /-- SET_FEEDER (R52) -/
  | setFeeder (feeder cls pickup : Nat) (lockout : Bool)
  /-- SHED_NOW (R70) -/
  | shedNow (h : Handle)
  /-- RESET_ROTATION (R55) -/
  | resetRotation (feeder : Nat)
  /-- SET_GENSET (R74) -/
  | setGenset (genset : Nat) (profile : ProfileFields)
  /-- WRITE_STEP (R83) -/
  | writeStep (slot step kind arg limit : Nat)
  /-- START (R109) -/
  | start (genset : Nat)
  /-- STOP (R108) -/
  | stop (genset : Nat) (force : Bool)
  /-- ABORT_START (R100) -/
  | abortStart (genset : Nat)
  /-- CLEAR_FAILED (R81) -/
  | clearFailed (genset : Nat)
  /-- LOCK_OUT (R80) -/
  | lockOut (genset : Nat)
  /-- UNLOCK (R80) -/
  | unlock (genset : Nat)
  /-- SET_ARRAY (R114) -/
  | setArray (array nameplate fallback : Nat)
  /-- SET_SHARE (R117) -/
  | setShare (bank array weight limit : Nat) (enabled : Bool)
  /-- SWAP_BANKS (R118) -/
  | swapBanks
  /-- CURTAIL_ON (R120) -/
  | curtailOn
  /-- CURTAIL_OFF (R121) -/
  | curtailOff
  /-- RUN (R141) -/
  | run
  /-- RESTART (R145) -/
  | restart
  /-- FINISH_RESTORE (R156) -/
  | finishRestore
  /-- SET_RESTORE_ENTRY (R151); feeder FFh removes -/
  | setRestoreEntry (position feeder pickup settle : Nat)
  /-- SET_LEAD_ORDER (R150): its count is the list's length -/
  | setLeadOrder (gensets : List Nat)
  /-- STAND_DOWN (R158) -/
  | standDown
  /-- RESUME (R158) -/
  | resume
  /-- SET_UNIT (R160); unit kind code and record number -/
  | setUnit (address kind record : Nat)
  /-- SET_POLL_LIST (R162): its count is the list's length -/
  | setPollList (addresses : List Nat)
  /-- POWER_ON_RESET (R193): the supply rises -/
  | powerOnReset
  /-- NRESET (R193): nRESET is driven low -/
  | nreset
  /-- BUSLIVE_CHANGE (R139): BUSLIVE takes this level -/
  | busliveChange (live : Bool)
  /-- DEAD_BUS_CONFIRMATION (R140) -/
  | deadBusConfirmation
  /-- LIVE_BUS_CONFIRMATION (R140) -/
  | liveBusConfirmation
  /-- RESTART_HOLDOFF_EXPIRY (R144) -/
  | restartHoldoffExpiry
  /-- LEAD_START_REQUEST (R112) -/
  | leadStartRequest (g : GensetNo)
  /-- LEAD_OUTCOME (R148) -/
  | leadOutcome (o : LeadOutcome)
  /-- ADOPTION_REQUEST (R77) -/
  | adoptionRequest (why : AdoptionWhy)
  /-- ADOPTION_ANSWER (R146, R149) -/
  | adoptionAnswer (why : AdoptionWhy) (adopted : List GensetNo)
  /-- IC_LANE_ABORT (R103): of the run of this genset -/
  | icLaneAbort (g : GensetNo)
  /-- SETTLE_EXPIRY (R155) -/
  | settleExpiry
  /-- WALK_PERMIT_REQUEST (R153) -/
  | walkPermitRequest (f : FeederNo) (kw : Kw)
  /-- WALK_PERMIT_ANSWER (R153, R154) -/
  | walkPermitAnswer (answer : WalkAnswer)
  /-- WALK_PERMIT_OUTCOME (R155): GRANTED, or left STAGING by another cause -/
  | walkPermitOutcome (h : Handle) (granted : Bool)
  /-- IC_HEADROOM_RISE (R154) -/
  | icHeadroomRise
  /-- SE_IDLE_TELLING (R152) -/
  | seIdleTelling (idle : Bool)
  /-- QUIET_MARK_CHANGE (R158) -/
  | quietMarkChange (mark : QuietMark) (quiet : Bool)
  /-- ADOPTION_SET_REMOVAL (R142) -/
  | adoptionSetRemoval (f : FeederNo)
  /-- IC_FEEDER_LOST (R142) -/
  | icFeederLost (f : FeederNo)
  /-- POSTING (R6) -/
  | posting (p : Posting)
  /-- RA_ISLAND_STATE (R16): the states left and entered -/
  | raIslandState (left entered : IslandState)
  /-- AE_BALANCE_UPDATE (R40) -/
  | aeBalanceUpdate
  /-- STEP_GUARD_EXPIRY (R37) -/
  | stepGuardExpiry
  /-- WAIT_DEADLINE_EXPIRY (R33) -/
  | waitDeadlineExpiry (slot : Slot)
  /-- RESERVATION_EXPIRY (R28) -/
  | reservationExpiry (slot : Slot)
  /-- START_DEMAND_DELAY (R34) -/
  | startDemandDelay
  /-- AE_REPLY_DELIVERY (R22): a REPLY with no claim -/
  | aeReplyDelivery (d : FeederDelivery)
  /-- DRAW_REQUEST (R23, R25): the AE's delivery of a REPLY with this claim -/
  | drawRequest (d : FeederDelivery) (claim : DrawClaim)
  /-- RELEASE (R26): the AE's delivery of a REPLY with this claim -/
  | release (d : FeederDelivery) (h : Handle)
  /-- AE_CONTACT_CHANGE (R45) -/
  | aeContactChange (f : FeederNo) (now : Contact)
  /-- SUPERSESSION_NOTICE (R167, R168, R172) -/
  | supersessionNotice (owner : Block) (target : UnitRec) (order : Order) (cause : GoneCause)
  /-- AE_DARK_ENTRY (R48) -/
  | aeDarkEntry
  /-- NAMING_END (R69) -/
  | namingEnd (result : NamingEnd)
  /-- SE_BALANCE_UPDATE (R56) -/
  | seBalanceUpdate
  /-- SE_REPLY_DELIVERY (R51) -/
  | seReplyDelivery (d : FeederDelivery)
  /-- SE_CONTACT_CHANGE (R51) -/
  | seContactChange (f : FeederNo) (now : Contact)
  /-- REVOKE_DEADLINE_EXPIRY (R63) -/
  | revokeDeadlineExpiry (slot : Slot)
  /-- MINIMUM_OFF_TIME (R68) -/
  | minimumOffTime (slot : Slot)
  /-- SE_ISLAND_STATE (R56): RUN, RESTART or RESTORE entered -/
  | seIslandState (entered : IslandState)
  /-- SE_DARK_ENTRY (R71) -/
  | seDarkEntry
  /-- GS_BALANCE_UPDATE (R86) -/
  | gsBalanceUpdate
  /-- GS_REPLY_DELIVERY (R75) -/
  | gsReplyDelivery (d : GensetDelivery)
  /-- GS_CONTACT_LOST (R79): LOST, or the SILENT that R174 also tells (log 31) -/
  | gsContactLost (g : GensetNo) (now : Contact)
  /-- STEP_LIMIT_EXPIRY (R90) -/
  | stepLimitExpiry (lane : LaneId)
  /-- READY_WAIT_EXPIRY (R89) -/
  | readyWaitExpiry (lane : LaneId)
  /-- MIN_RUN_EXPIRY (R104) -/
  | minRunExpiry (g : GensetNo)
  /-- REST_TIMER_EXPIRY (R110) -/
  | restTimerExpiry (g : GensetNo)
  /-- STOP_DELAY_EXPIRY (R105) -/
  | stopDelayExpiry
  /-- PHASE_LIMIT_EXPIRY (R106) -/
  | phaseLimitExpiry (g : GensetNo)
  /-- COOL_DOWN_EXPIRY (R106) -/
  | coolDownExpiry (g : GensetNo)
  /-- GS_ISLAND_STATE (R111) -/
  | gsIslandState (entered : IslandState)
  /-- CU_BALANCE_UPDATE (R122) -/
  | cuBalanceUpdate
  /-- CU_REPLY_DELIVERY (R116) -/
  | cuReplyDelivery (d : ArrayDelivery)
  /-- CU_CONTACT_LOST (R116): LOST, or the SILENT that R174 also tells (log 31) -/
  | cuContactLost (a : ArrayNo) (now : Contact)
  /-- SHARE_PERIOD_EXPIRY (R128) -/
  | sharePeriodExpiry
  /-- RAISE_CLAIM_ANSWER (R129): the arrays whose claimed cap the claim raised -/
  | raiseClaimAnswer (raised : List ArrayNo)
  /-- RELEASE_DELAY_EXPIRY (R125) -/
  | releaseDelayExpiry
  /-- RELEASE_CLAIM_ANSWER (R126): accepted whole or not, and the arrays raised -/
  | releaseClaimAnswer (whole : Bool) (raised : List ArrayNo)
  /-- HOLD_QUANTUM (R132, R133): of this array -/
  | holdQuantum (a : ArrayNo)
  /-- HOLD_LAPSE (R133): of this array -/
  | holdLapse (a : ArrayNo)
  /-- CU_RUN_ENTRY (R119): the state RUN was entered from -/
  | cuRunEntry (left : IslandState)
  /-- CU_DARK_ENTRY (R134) -/
  | cuDarkEntry
  /-- CU_RESTORE_ENTRY (R135) -/
  | cuRestoreEntry
  /-- FLC_ISLAND_STATE (R161) -/
  | flcIslandState (entered : IslandState)
  /-- ORDER_PLACEMENT (R167) -/
  | orderPlacement (p : Placement)
  /-- ORDER_WITHDRAWAL (R168) -/
  | orderWithdrawal (w : Withdrawal)
  /-- GAP_EXPIRY (R164) -/
  | gapExpiry
  /-- FRAME_SENT (R163) -/
  | frameSent
  /-- REPLY_START (R163) -/
  | replyStart
  /-- REPLY_RECEIVED (R166): the characters received -/
  | replyReceived (chars : List Byte)
  /-- RECEPTION_TIMEOUT (R163) -/
  | receptionTimeout
  /-- REPLY_WINDOW_EXPIRY (R163) -/
  | replyWindowExpiry
  /-- NOTICE_RAISE (R184) -/
  | noticeRaise (n : Notice)
  /-- SHED_LIST_CANDIDATE_NAMED (R40, R69) -/
  | shedListCandidateNamed (h : Handle)
  /-- RESET_END (R193) -/
  | resetEnd
  /-- TRANSACTION_BEGIN (R181): CS falls while READY is high -/
  | transactionBegin
  deriving DecidableEq, Repr

end Sys2Proof
end

