-- ==== Sys2Proof/Config.lean ====
section
/-! DEFINITION. What the manual leaves to the part and does not state: the free values, constants with no body. Nothing
in the model knows more of them than their types (log 8, log 9, log 10). -/

namespace Sys2Proof.Config

/-- A may-wait, lockout, force or enabled mark byte that is neither 00h nor 01h: 09 section 9.6 gives no meaning (log 8). -/
opaque otherMark : Byte → Bool

/-- A feeder report's breaker byte that is neither 00h OPEN nor 01h CLOSED (09 sections 9.2 and 9.3): CLOSED or not (log 8). -/
opaque otherBreaker : Byte → Bool

/-- An answer byte that is neither 00h ACCEPTED nor 01h REFUSED (09 section 9.3): accepted or not (log 8). -/
opaque otherAnswer : Byte → Bool

/-- What a record takes as the draw or output when a REPLY carries a figure above 16,000 kW, outside the range the record
holds (R19, R113, 00_scope.md Conventions); its users bound it by 16,000 (log 9). -/
opaque overRange : Kw → Kw

/-- The code of a walk phase in the ISLAND look-up: phase number 0 to 3 in R152's order (log 10). -/
opaque walkPhaseCode : Fin 4 → Byte

/-- The code of the held bus state in the ISLAND look-up, for LIVE and for DEAD (log 10). -/
opaque heldBusCode : Bool → Byte

/-- The live decision in the ISLAND look-up: pending or not, the lead's answer and the adoption's (log 10). -/
opaque liveDecisionCode : Option (Option Bool × Option Bool) → Byte

/-- The skip marks in the ISLAND look-up, three bytes (log 10). -/
opaque skipMarksCode : List Bool → BitVec 24

/-- The Adoption Set in the ISLAND look-up, three bytes (log 10). -/
opaque adoptionSetCode : List FeederNo → BitVec 24

/-- What a look-up record carries in a byte of a field that is absent, where 09 names no absent value: by record kind and
place (log 11). -/
opaque absentByte : Nat → Nat → Byte

/-- Whether the look-up of a FREE Permit Table slot has its defined mark set (log 11). -/
opaque freeSlotDefined : Bool

end Sys2Proof.Config
end

