-- ==== Sys2Proof/Machine/State.lean ====
section
/-! DEFINITION. The state of the NF-240 as plain data, block by block, and its value after reset. A field's default is its
value after power-on reset; the rule in its docstring names the field and gives that value. -/

namespace Sys2Proof.Machine

/-- No command of the manual stops the part: every event it names has an effect or is answered (INVENTORY.md, Faults). -/
inductive Fault where
  deriving DecidableEq, Repr

/-- Why a command has no outcome in the model. -/
inductive Refusal where
  /-- raised by an arm of `exec` for a row that has no meaning yet; safe -/
  | notModelled (mnemonic : String)
  deriving DecidableEq, Repr

/-! ## Admission Engine -/

/-- The permit states (02 section 2.2). -/
inductive PermitState where
  | free | queued | staging | granted | unverified | revoking | shed
  deriving DecidableEq, Repr

/-- The holder of a permit (R19). -/
inductive Holder where
  | feeder (f : FeederNo)
  | station
  deriving DecidableEq, Repr

/-- The revoke reasons (R19). -/
inductive RevokeReason where
  | ladder | retire
  deriving DecidableEq, Repr

/-- One slot of the Permit Table (R19). A field that is absent in the slot's state holds `none` or its default. -/
structure Permit where
  /-- the slot's generation, 1 to 255 (R19, R49) -/
  gen            : Nat := 1
  state          : PermitState := .free
  holder         : Option Holder := none
  cls            : Nat := 0
  requested      : Kw := 0
  released       : Kw := 0
  lastDraw       : Kw := 0
  arrival        : Nat := 0
  waitDeadline   : Timer := none
  /-- the clock at the entry into QUEUED, from which the queue entry time counts (R32, log 3) -/
  queuedAt       : Ms := 0
  revokeReason   : Option RevokeReason := none
  revokeDeadline : Timer := none
  /-- the shed time: the clock at the entry into SHED (R61, log 3) -/
  shedAt         : Ms := 0
  /-- the expiry as given, in seconds (R28) -/
  expiryGiven    : Option Nat := none
  expiryLeft     : Timer := none
  overdraw       : Bool := false
  deriving DecidableEq, Repr

/-- A release in flight: the handle, its feeder and the cumulative released kW the GRANT carries (R36). -/
structure Flight where
  handle : Handle
  feeder : FeederNo
  kw     : Kw
  deriving DecidableEq, Repr

/-- What the Admission Engine owns (02). -/
structure Admission where
  permits     : Vector Permit 32 := Vector.replicate 32 {}
  /-- at most 16 slots, by class and arrival (R32) -/
  waitQueue   : List Slot := []
  /-- the feeder permits in STAGING, in order of entry (R35) -/
  releaseList : List Slot := []
  stepGuard   : Timer := none
  inFlight    : Option Flight := none
  /-- 32 bits, stops at FFFFFFFFh (R20) -/
  arrivals    : Nat := 0
  /-- the Shed List candidate the SE has named and no service has taken yet (R40, R69) -/
  candidate   : Option Handle := none
  deriving DecidableEq, Repr

/-! ## Shed Engine -/

/-- A feeder's last breaker state (R50). -/
inductive BreakerState where
  | open_ | closed | unknown
  deriving DecidableEq, Repr

/-- One record of the Feeder Table, with the reset values of R50. -/
structure Feeder where
  addr        : Option Addr := none
  cls         : Nat := 3
  pickup      : Kw := 0
  lockout     : Bool := false
  shedSeconds : Nat := 0
  breaker     : BreakerState := .unknown
  isLocal     : Bool := false
  permit      : Option Handle := none
  unconfirmed : Option RevokeReason := none
  deriving DecidableEq, Repr

/-- The Shed Engine states (03 section 3.3). -/
inductive ShedState where
  | idle | shedding | exhausted
  deriving DecidableEq, Repr

/-- What the Shed Engine owns (03). -/
structure Shedding where
  feeders  : Vector Feeder 24 := Vector.replicate 24 {}
  /-- the permits in SHED, by class and shed time (R67) -/
  shedList : List Slot := []
  state    : ShedState := .idle
  naming   : Option Handle := none
  deriving DecidableEq, Repr

/-! ## Genset Sequencer -/

/-- A genset's profile (R73). -/
structure Profile where
  rated       : Kw
  minimum     : Kw
  step        : Kw
  merit       : Nat
  primary     : Fin 8
  dark        : Option (Fin 8)
  maxAttempts : Nat
  /-- seconds -/
  minRun      : Nat
  /-- seconds -/
  coolDown    : Nat
  deriving DecidableEq, Repr

/-- The genset states (04 section 4.2). -/
inductive GensetState where
  | unknown | off | starting | online | stopping | failed | locked
  deriving DecidableEq, Repr

/-- The stop phases (R106). -/
inductive StopPhase where
  | unloading | opening | cooling | shutting
  deriving DecidableEq, Repr

/-- One record of the Commitment Table (R73); its lane field is worked out from the lanes. -/
structure Genset where
  addr       : Option Addr := none
  profile    : Option Profile := none
  state      : GensetState := .unknown
  /-- slot × 16 + step (R73, 09 section 9.4) -/
  pointer    : Fin 128 := 0
  attempts   : Nat := 0
  phase      : Option StopPhase := none
  /-- present in ONLINE; 0 when it has run out -/
  minRun     : Timer := none
  coolDown   : Timer := none
  phaseLimit : Timer := none
  rest       : Timer := none
  report     : GensetReport := {}
  /-- the cause of the genset's last failed run (R148, log 50) -/
  cause      : Option FailCause := none
  /-- a failed run has left the genset OFF, and its unit has not accepted the STOP yet (R96, log 69) -/
  stopOwed   : Bool := false
  deriving DecidableEq, Repr

/-- The step kinds (R82). -/
inductive StepKind where
  | end_ | crank | await | wait | sync | close | deadclose | ramp
  deriving DecidableEq, Repr

/-- One Program Store step: kind, argument byte, limit in 0.1 s (R82); END with 0.1 s after power-on reset. -/
structure ProgStep where
  kind  : StepKind := .end_
  arg   : Nat := 0
  limit : Nat := 1
  deriving DecidableEq, Repr

/-- The origin of a run or of a Start Queue entry (R85, R88). -/
inductive Origin where
  | demand | station | restart
  deriving DecidableEq, Repr

/-- The states of a lane that is not IDLE (R88). -/
inductive RunState where
  | stepping | tokenWait | held | aborting
  deriving DecidableEq, Repr

/-- A step in flight and its position (R88). -/
structure StepInFlight where
  pos  : Fin 128
  step : ProgStep
  deriving DecidableEq, Repr

/-- A lane that is not IDLE (R88). -/
structure Run where
  genset       : GensetNo
  origin       : Origin
  state        : RunState
  inFlight     : Option StepInFlight := none
  stepTimer    : Timer := none
  readyWait    : Timer := none
  token        : Bool := false
  closeOrdered : Bool := false
  deriving DecidableEq, Repr

/-- A Start Queue entry (R85). -/
structure QueueEntry where
  genset : GensetNo
  origin : Origin
  deriving DecidableEq, Repr

/-- What the Genset Sequencer owns (04); `none` is an IDLE lane. -/
structure Sequencer where
  gensets       : Vector Genset 6 := Vector.replicate 6 {}
  store         : Vector ProgStep 128 := Vector.replicate 128 {}
  laneA         : Option Run := none
  laneB         : Option Run := none
  queue         : List QueueEntry := []
  stopDelay     : Timer := none
  stopCandidate : Option GensetNo := none
  deriving DecidableEq, Repr

/-! ## Curtailment Unit -/

/-- A cap in kW, or UNHELD (R113): a target, or what an order in the slot orders. -/
inductive Cap where
  | unheld
  | kw (cap : Kw)
  deriving DecidableEq, Repr

/-- The cap in force, hold remaining and hold length in force of a HELD array, in quanta, and the time to the next
quantum (R113, R133). -/
structure Hold where
  cap       : Kw
  remaining : Nat
  length    : Nat
  quantum   : Ms
  deriving DecidableEq, Repr

/-- The array states with the fields present in HELD alone (R113). -/
inductive ArrayState where
  | unheld
  | held (h : Hold)
  | lapsed
  deriving DecidableEq, Repr

/-- An array's definition (R113). -/
structure ArrayDef where
  nameplate : Kw
  fallback  : Kw
  deriving DecidableEq, Repr

/-- One record of the Array Table (R113). -/
structure ArrayRecord where
  addr       : Option Addr := none
  definition : Option ArrayDef := none
  state      : ArrayState := .unheld
  target     : Option Cap := none
  ordered    : Option Cap := none
  claimed    : Option Kw := none
  refusal    : Bool := false
  /-- a lowering has been ordered since the array was last offered in a claim (R129, log 51) -/
  lowered    : Bool := false
  lastOutput : Kw := 0
  deriving DecidableEq, Repr

/-- A share-bank entry (R117). -/
structure Share where
  weight  : Nat := 0
  limit   : Kw := 16000
  enabled : Bool := false
  deriving DecidableEq, Repr

/-- The two share banks (R117). -/
inductive Bank where
  | a | b
  deriving DecidableEq, Repr

/-- The curtailment states (05 section 5.3). -/
inductive CurtailState where
  | off | watch | engaged | disengaging | darkHold
  deriving DecidableEq, Repr

/-- What the Curtailment Unit owns (05). -/
structure Curtailment where
  arrays         : Vector ArrayRecord 8 := Vector.replicate 8 {}
  bankA          : Vector Share 8 := Vector.replicate 8 {}
  bankB          : Vector Share 8 := Vector.replicate 8 {}
  current        : Bank := .a
  swapPending    : Bool := false
  state          : CurtailState := .off
  resumeState    : Option CurtailState := none
  /-- starts at the share period, 5 s by default, on every reset (R119) -/
  sharePeriod    : Ms := 5000
  releaseDelay   : Timer := none
  claim          : Option ClaimKind := none
  /-- a release claim waits for the outstanding raise claim's answer (R126) -/
  releaseWaiting : Bool := false
  deriving DecidableEq, Repr

/-! ## Island Controller -/

/-- The walk phases (R152). -/
inductive WalkPhase where
  | next | waitFit | waitGrant | settle
  deriving DecidableEq, Repr

/-- A Restore List entry with its skip mark (R151, R137); the settle delay is in seconds. -/
structure RestoreEntry where
  feeder : FeederNo
  pickup : Kw
  settle : Nat
  skip   : Bool := false
  deriving DecidableEq, Repr

/-- A pending live decision and its two answers (R149): did the lead go ONLINE, did the adoption name a genset. -/
structure LiveDecision where
  lead     : Option Bool := none
  adoption : Option Bool := none
  deriving DecidableEq, Repr

/-- The island record (R137), with the current lead of R147. -/
structure Island where
  state         : IslandState := .setup
  /-- the held bus state: true is LIVE -/
  heldLive      : Bool := false
  deadConfirm   : Timer := none
  liveConfirm   : Timer := none
  holdoff       : Timer := none
  restoreList   : List RestoreEntry := []
  walkPointer   : Nat := 0
  walkPhase     : Option WalkPhase := none
  walkPermit    : Option Handle := none
  settle        : Timer := none
  leadOrder     : List GensetNo := []
  leadIndex     : Nat := 0
  lead          : Option GensetNo := none
  rounds        : Nat := 0
  suspended     : Bool := false
  foreignLive   : Bool := false
  decision      : Option LiveDecision := none
  standDown     : Bool := false
  complete      : Bool := false
  releaseQuiet  : Bool := true
  sequencerQuiet : Bool := true
  adoptionSet   : List FeederNo := []
  deriving DecidableEq, Repr

/-! ## Field Loop Controller -/

/-- One Unit Directory entry (R159): an unbound entry is VACANT. -/
structure UnitEntry where
  bound   : Option UnitRec := none
  contact : Contact := .unknown
  missed  : Nat := 0
  orderNo : Nat := 0
  slot    : Option SlotOrder := none
  deriving DecidableEq, Repr

/-- The turn under way (R163 to R165): its address, urgent or poll, its sent order, whether its REPLY is to be discarded
(R160), and the baud rate it began at (R178). -/
structure Turn where
  addr    : Addr
  urgent  : Bool
  sent    : Option SlotOrder
  discard : Bool
  baud    : Nat
  deriving DecidableEq, Repr

/-- The loop states (R163): the frame being shifted out in SENDING, the time left of the window in AWAITING and of the gap
in GAP. -/
inductive Loop where
  | idle
  | sending (turn : Turn) (frame : List Byte)
  | awaiting (turn : Turn) (window : Ms)
  | receiving (turn : Turn)
  | gap (left : Ms)
  deriving DecidableEq, Repr

/-- What the Field Loop Controller owns (07). -/
structure FieldLoop where
  directory : Vector UnitEntry 32 := Vector.replicate 32 {}
  pollList  : List Addr := []
  cursor    : Nat := 0
  urgent    : List Addr := []
  loop      : Loop := .idle
  deriving DecidableEq, Repr

/-! ## Station Port -/

/-- The statuses a held reply may have (08 section 8.3); BUSY is given by the transport alone. -/
inductive Status where
  | done | refused | busy | checkError | unknownCommand | formatError
  deriving DecidableEq, Repr

/-- A reply: status, code echo and payload (R179). -/
structure Reply where
  status  : Status := .done
  echo    : Byte := 0
  payload : List Byte := []
  deriving DecidableEq, Repr

/-- A transaction under way: busy or not, and the 64 bytes it shifts out (R179, R181). -/
structure Transaction where
  busy  : Bool
  frame : List Byte
  deriving DecidableEq, Repr

/-- The defaults of the Setting Table, in the order of the setting numbers (08 section 8.6). -/
def settingDefaults : Vector Nat 30 :=
  #v[3, 20, 2, 19200, 0, 50, 0, 0, 10, 0, 0, 300, 30, 60, 20, 120, 0, 30, 5, 10, 20, 20, 30, 0, 2, 40, 0, 0, 60, 5]

/-- What the Station Port owns (08). -/
structure Port where
  held        : Reply := {}
  /-- the code of the request in execution; READY is low while there is one (R181) -/
  executing   : Option Byte := none
  transaction : Option Transaction := none
  /-- what the last transaction shifted out on MISO -/
  shifted     : List Byte := []
  /-- the Notice Set's flags by bit number (R184, 09 section 9.6) -/
  notices     : Vector Bool 15 := Vector.replicate 15 false
  settings    : Vector Nat 30 := settingDefaults
  deriving DecidableEq, Repr

/-! ## The part -/

/-- The input pins (00_scope.md, Signals): the level of BUSLIVE, and whether CS is low. Their levels are the world's;
State.reset's are the model's choice (log 12). -/
structure Pins where
  buslive : Bool := false
  csLow   : Bool := false
  deriving DecidableEq, Repr

/-- The Need Register: at most one AE need and one IC need, of 1 to 16,000 kW each (R12). -/
structure Needs where
  ae : Option Kw := none
  ic : Option Kw := none
  deriving DecidableEq, Repr

/-- The whole part. -/
structure State where
  /-- the commands waiting, first in, first out -/
  pending : List Instr := []
  /-- what the blocks have told each other and not yet taken, oldest first (log 1) -/
  events  : List Instr := []
  /-- milliseconds since the last reset (log 3) -/
  clock   : Ms := 0
  /-- from the start of a power-on reset or nRESET to its end (R181, R193) -/
  inReset : Bool := false
  pins    : Pins := {}
  needs   : Needs := {}
  ae      : Admission := {}
  se      : Shedding := {}
  gs      : Sequencer := {}
  cu      : Curtailment := {}
  ic      : Island := {}
  flc     : FieldLoop := {}
  sp      : Port := {}
  deriving DecidableEq, Repr

/-- The part when a power-on reset or nRESET has ended (R1, R18, R49, R50, R73, R82, R113, R117, R119, R137, R159, R177,
R180, R191, R193): nothing waits, and every record holds its reset value. -/
def State.reset : State :=
  { pending := [], events := [], clock := 0, inReset := false, pins := {}, needs := {}, ae := {}, se := {}, gs := {},
    cu := {}, ic := {}, flc := {}, sp := {} }

end Sys2Proof.Machine
end

