-- ==== Sys2Proof/Machine/Ops.lean ====
section
/-! DEFINITION. The named operations over the state that every block uses: reading and writing one record, the list of
events, settings, notices, contact and order slots as the placing blocks see them. -/

namespace Sys2Proof

/-! ## Setting numbers and ranges, order kinds -/

/-- A setting's number (08 section 8.6). -/
def Setting.index : Setting → Fin 30
  | .missedLimit => 0 | .replyWindow => 1 | .interFrameGap => 2 | .baudRate => 3 | .baseReserve => 4
  | .cloudFactor => 5 | .floorMargin => 6 | .startLevel => 7 | .startDemandDelay => 8 | .autoStop => 9
  | .stopLevel => 10 | .stopDelay => 11 | .restAfterFailure => 12 | .readyWait => 13 | .stepGuard => 14
  | .defaultWaitLimit => 15 | .restoreMargin => 16 | .minimumOffTime => 17 | .revokeLimit => 18
  | .overdrawTolerance => 19 | .deadBusConfirm => 20 | .liveBusConfirm => 21 | .restartHoldoff => 22
  | .autoRestart => 23 | .restartRounds => 24 | .holdLength => 25 | .engageLevel => 26 | .releaseLevel => 27
  | .releaseDelay => 28 | .sharePeriod => 29

/-- The settings in the order of their numbers. -/
def settingList : List Setting :=
  [.missedLimit, .replyWindow, .interFrameGap, .baudRate, .baseReserve, .cloudFactor, .floorMargin, .startLevel,
   .startDemandDelay, .autoStop, .stopLevel, .stopDelay, .restAfterFailure, .readyWait, .stepGuard, .defaultWaitLimit,
   .restoreMargin, .minimumOffTime, .revokeLimit, .overdrawTolerance, .deadBusConfirm, .liveBusConfirm,
   .restartHoldoff, .autoRestart, .restartRounds, .holdLength, .engageLevel, .releaseLevel, .releaseDelay, .sharePeriod]

/-- The setting a number names; none above 1Dh (R189). -/
def Setting.ofNumber (n : Nat) : Option Setting := settingList[n]?

/-- Whether a value lies in a setting's range (08 section 8.6). -/
def Setting.inRange (st : Setting) (v : Nat) : Bool :=
  match st with
  | .missedLimit => decide (1 ≤ v ∧ v ≤ 7)
  | .replyWindow => decide (5 ≤ v ∧ v ≤ 100)
  | .interFrameGap => decide (1 ≤ v ∧ v ≤ 20)
  | .baudRate => v == 9600 || v == 19200 || v == 38400 || v == 57600
  | .baseReserve | .floorMargin | .startLevel | .stopLevel | .restoreMargin | .engageLevel | .releaseLevel =>
      decide (v ≤ 16000)
  | .cloudFactor => decide (v ≤ 100)
  | .startDemandDelay | .minimumOffTime => decide (v ≤ 600)
  | .autoStop | .autoRestart => decide (v ≤ 1)
  | .stopDelay => decide (10 ≤ v ∧ v ≤ 3600)
  | .restAfterFailure | .restartHoldoff => decide (5 ≤ v ∧ v ≤ 600)
  | .readyWait | .releaseDelay => decide (1 ≤ v ∧ v ≤ 600)
  | .stepGuard => decide (5 ≤ v ∧ v ≤ 255)
  | .defaultWaitLimit => decide (10 ≤ v ∧ v ≤ 600)
  | .revokeLimit | .sharePeriod => decide (1 ≤ v ∧ v ≤ 60)
  | .overdrawTolerance => decide (v ≤ 50)
  | .deadBusConfirm | .liveBusConfirm => decide (5 ≤ v ∧ v ≤ 100)
  | .restartRounds => decide (1 ≤ v ∧ v ≤ 5)
  | .holdLength => decide (4 ≤ v ∧ v ≤ 240)

/-- An order's kind (R168). -/
def Order.kind : Order → OrderKind
  | .grant _ _ _ => .grant | .wait _ _ => .wait | .deny _ _ => .deny | .open_ _ => .open_ | .crank => .crank
  | .sync => .sync | .close => .close | .deadclose => .deadclose | .ramp _ => .ramp | .unload => .unload
  | .openBreaker => .openBreaker | .stop => .stop | .hold _ _ => .hold | .release => .release

namespace Machine

/-! ## Small helpers -/

/-- The sum of `f` over a list. -/
def sumOver {α : Type} (f : α → Nat) (l : List α) : Nat := l.foldr (fun a n => f a + n) 0

/-- Every entry of a table through `f`, which sees its index. -/
def mapTable {α : Type} {n : Nat} (f : Fin n → α → α) (v : Vector α n) : Vector α n :=
  Vector.ofFn fun i => f i v[i]

/-- The indices of a table of `n` entries, in order. -/
def indices (n : Nat) : List (Fin n) := List.finRange n

/-- A number as an index, where it is in range. -/
def index? (n k : Nat) : Option (Fin n) := if h : k < n then some ⟨k, h⟩ else none

/-- Insert before the first element that `before` puts after `a`. -/
def insertBy {α : Type} (before : α → α → Bool) (a : α) : List α → List α
  | [] => [a]
  | b :: l => if before a b then a :: b :: l else b :: insertBy before a l

/-- Sort by repeated insertion; equals keep their order. -/
def sortBy {α : Type} (before : α → α → Bool) : List α → List α
  | [] => []
  | a :: l => insertBy before a (sortBy before l)

/-- Seconds in milliseconds. -/
def secs (n : Nat) : Ms := n * 1000

/-- Tenths of a second in milliseconds. -/
def tenths (n : Nat) : Ms := n * 100

/-! ## Records -/

def State.permit (s : State) (i : Slot) : Permit := s.ae.permits[i]

def State.setPermit (s : State) (i : Slot) (p : Permit) : State :=
  { s with ae := { s.ae with permits := s.ae.permits.set i p } }

def State.feeder (s : State) (f : FeederNo) : Feeder := s.se.feeders[f]

def State.setFeeder (s : State) (f : FeederNo) (r : Feeder) : State :=
  { s with se := { s.se with feeders := s.se.feeders.set f r } }

def State.genset (s : State) (g : GensetNo) : Genset := s.gs.gensets[g]

def State.setGenset (s : State) (g : GensetNo) (r : Genset) : State :=
  { s with gs := { s.gs with gensets := s.gs.gensets.set g r } }

def State.array (s : State) (a : ArrayNo) : ArrayRecord := s.cu.arrays[a]

def State.setArray (s : State) (a : ArrayNo) (r : ArrayRecord) : State :=
  { s with cu := { s.cu with arrays := s.cu.arrays.set a r } }

def State.entry (s : State) (u : Addr) : UnitEntry := s.flc.directory[u]

def State.setEntry (s : State) (u : Addr) (r : UnitEntry) : State :=
  { s with flc := { s.flc with directory := s.flc.directory.set u r } }

/-- The run of a lane; none is IDLE (R88). -/
def State.run (s : State) : LaneId → Option Run
  | .a => s.gs.laneA
  | .b => s.gs.laneB

def State.setRun (s : State) (lane : LaneId) (r : Option Run) : State :=
  match lane with
  | .a => { s with gs := { s.gs with laneA := r } }
  | .b => { s with gs := { s.gs with laneB := r } }

/-- The lane that runs a genset (R73's lane field). -/
def State.laneOf (s : State) (g : GensetNo) : Option LaneId :=
  if s.gs.laneA.any (·.genset == g) then some .a
  else if s.gs.laneB.any (·.genset == g) then some .b
  else none

/-! ## Events and notices -/

/-- A telling to be taken later, behind those already sent (log 1). -/
def State.push (s : State) (e : Instr) : State := { s with events := s.events ++ [e] }

def State.pushAll (s : State) (es : List Instr) : State := { s with events := s.events ++ es }

/-- A telling that is taken is no longer outstanding (log 1). -/
def State.took (s : State) (e : Instr) : State := { s with events := s.events.erase e }

/-- A block raises a notice: the SP takes the raising as an event of its own (R184). -/
def State.notice (s : State) (n : Notice) : State := s.push (.noticeRaise n)

/-- One event of one block. The telling it answers is no longer outstanding; while the part is held in reset nothing is
taken (R181, R193, log 27). -/
def State.taking (c : Instr) (f : State → State) (s : State) : Host.Outcome State Fault Refusal :=
  .next (if s.inReset then s else f (s.took c))

/-! ## Settings -/

/-- The value a setting holds (R189 to R191). -/
def State.setting (s : State) (st : Setting) : Nat := s.sp.settings[st.index]

def State.putSetting (s : State) (st : Setting) (v : Nat) : State :=
  { s with sp := { s.sp with settings := s.sp.settings.set st.index v } }

/-! ## Island and contact as other blocks read them -/

/-- RUN or RESTORE: the states in which the part sheds, starts and curtails (06 section 6.2). Every block reads the
island state at the IC (log 5). -/
def State.active (s : State) : Bool := s.ic.state == .run || s.ic.state == .restore

/-- The contact state of the unit at an address; a record with no address is out of contact (R50, R160). -/
def State.contactAt (s : State) : Option Addr → Contact
  | none => .lost
  | some u => (s.entry u).contact

def State.addrOf (s : State) : UnitRec → Option Addr
  | .feeder f => (s.feeder f).addr
  | .genset g => (s.genset g).addr
  | .array a => (s.array a).addr

def State.contactOf (s : State) (r : UnitRec) : Contact := s.contactAt (s.addrOf r)

/-- IN CONTACT, SILENT or UNKNOWN: the units that dark entry orders (R71, R134). -/
def State.notLost (s : State) (r : UnitRec) : Bool := s.contactOf r != .lost

/-! ## Order slots as the placing blocks see them -/

/-- The order in a record's slot (R159). -/
def State.slotOf (s : State) (r : UnitRec) : Option SlotOrder := (s.addrOf r).bind fun u => (s.entry u).slot

/-- What one outstanding event will make of a record's slot. -/
def slotAfter (r : UnitRec) (e : Instr) (held : Option (Order × Block)) : Option (Order × Block) :=
  match e with
  | .orderPlacement p => if p.target = r then some (p.order, p.owner) else held
  | .orderWithdrawal w => if w.target = r ∧ held.any (fun o => o.1.kind == w.kind) then none else held
  | _ => held

/-- A record's slot as it stands once the placements and withdrawals on their way to the FLC are taken. The blocks'
tests of a slot read this, so that a block sees its own last placement (log 7). -/
def State.slotView (s : State) (r : UnitRec) : Option (Order × Block) :=
  s.events.foldl (fun held e => slotAfter r e held) ((s.slotOf r).map fun o => (o.order, o.owner))

/-- A block places an order (R167); the FLC takes the placement as an event of its own. -/
def State.place (s : State) (r : UnitRec) (o : Order) (owner : Block) (urgent : Bool) : State :=
  s.push (.orderPlacement { target := r, order := o, owner := owner, urgent := urgent })

/-- A block withdraws an order of a kind (R168). -/
def State.withdraw (s : State) (r : UnitRec) (k : OrderKind) (by_ : Block) : State :=
  s.push (.orderWithdrawal { target := r, kind := k, by_ := by_ })

/-- The figure a record takes from a reading: one above 16,000 kW is outside the record's range, and a free value within
the range stands for it (R19, R113, log 9). -/
def reading (kw : Kw) : Kw := if kw ≤ 16000 then kw else min (Config.overRange kw) 16000

end Machine

end Sys2Proof
end

