-- ==== Sys2Proof/Machine/Account.lean ====
section
/-! DEFINITION. The Reserve Account (01): its figures, worked out from the records they are sums of (R1), and the taking of
a posting (R6 to R10): judged if claimed, applied with its record changes, then told to the watchers (R14). -/

namespace Sys2Proof.Machine

/-! ## What each record adds to the figures -/

/-- The states whose permits count in the charged load (R1). -/
def PermitState.charged : PermitState → Bool
  | .staging | .granted | .unverified | .revoking => true
  | .free | .queued | .shed => false

/-- Whether the permit's holder is a feeder. -/
def Permit.ofFeeder (p : Permit) : Bool :=
  match p.holder with
  | some (.feeder _) => true
  | _ => false

/-- The charged kW of a permit, worked out from its state (R21). -/
def Permit.charge (p : Permit) : Kw :=
  match p.state with
  | .free | .queued | .shed => 0
  | .staging => p.requested
  | .granted | .unverified | .revoking => if p.ofFeeder then max p.requested p.lastDraw else p.requested

/-- What a permit adds to the measured load (R1). -/
def Permit.measured (p : Permit) : Kw := if p.state.charged && p.ofFeeder then p.lastDraw else 0

/-- What a genset adds to a sum over ONLINE gensets (R1). -/
def Genset.adds (f : Profile → Kw) (g : Genset) : Kw :=
  if g.state = .online then (g.profile.map f).getD 0 else 0

/-- The exposure of an array, worked out from its state (R115). -/
def ArrayRecord.exposure (a : ArrayRecord) : Kw :=
  match a.definition with
  | none => 0
  | some d =>
    match a.state with
    | .unheld => d.nameplate
    | .held h => max h.cap (a.claimed.getD 0)
    | .lapsed => d.fallback

/-! ## The figures -/

def State.onlineCapacity (s : State) : Kw := sumOver (Genset.adds Profile.rated) s.gs.gensets.toList
def State.minimumLoad (s : State) : Kw := sumOver (Genset.adds Profile.minimum) s.gs.gensets.toList
def State.stepAcceptance (s : State) : Kw := sumOver (Genset.adds Profile.step) s.gs.gensets.toList
def State.chargedLoad (s : State) : Kw := sumOver Permit.charge s.ae.permits.toList
def State.measuredLoad (s : State) : Kw := sumOver Permit.measured s.ae.permits.toList
def State.exposure (s : State) : Kw := sumOver ArrayRecord.exposure s.cu.arrays.toList

/-- The reserve requirement: the base reserve plus the cloud factor's share of the exposure, rounded up (R2). -/
def State.reserveRequirement (s : State) : Kw :=
  s.setting .baseReserve + (s.setting .cloudFactor * s.exposure + 99) / 100

/-- Headroom, signed (R2). -/
def State.headroom (s : State) : Int :=
  (s.onlineCapacity : Int) - s.chargedLoad - s.reserveRequirement

/-- The ceiling (R3). -/
def State.ceiling (s : State) : Kw := s.measuredLoad - s.minimumLoad - s.setting .floorMargin

/-- Capacity wanted: the greatest of the four quantities of R4. -/
def State.capacityWanted (s : State) : Kw :=
  let short (need : Option Kw) : Int := need.elim 0 (fun n => (n : Int) - s.headroom)
  (max (max 0 ((s.setting .startLevel : Int) - s.headroom)) (max (short s.needs.ae) (short s.needs.ic))).toNat

/-! ## Postings -/

/-- The balance updates that go out after a posting, at most one to each watcher (R14), and the SHORTFALL it may raise
(R16). -/
def updates (before after : State) : List Instr :=
  let h := before.headroom
  let h' := after.headroom
  (if after.active ∧ 0 ≤ h ∧ h' < 0 then [.noticeRaise .shortfall] else [])
    ++ (if h < h' then [.aeBalanceUpdate] else [])
    ++ (if h ≠ h' then [.seBalanceUpdate] else [])
    ++ (if h ≠ h' ∨ before.capacityWanted ≠ after.capacityWanted then [.gsBalanceUpdate] else [])
    ++ (if before.ceiling ≠ after.ceiling then [.cuBalanceUpdate] else [])
    ++ (if after.needs.ic.isSome ∧ h < h' then [.icHeadroomRise] else [])

/-- The state after an accepted posting, its updates sent (R6). -/
def State.notify (before after : State) : State := after.pushAll (updates before after)

/-- A forced posting: always accepted (R10). -/
def State.post (s : State) (change : State → State) : State := s.notify (change s)

/-- A claimed posting that raises the charged load: accepted when headroom after it is at least 0, or when it raises
nothing (R7); none is the refusal, which changes no figure and no record. -/
def State.claim (s : State) (change : State → State) : Option State :=
  let t := change s
  if 0 ≤ t.headroom ∨ t.chargedLoad ≤ s.chargedLoad then some (s.notify t) else none

/-- How much of an offered exposure raise the RA accepts (R8). -/
def State.clipRaise (s : State) (offered : Kw) : Kw :=
  let factor := s.setting .cloudFactor
  let allowance : Int := 100 * ((s.onlineCapacity : Int) - s.chargedLoad - s.setting .baseReserve)
  if factor = 0 then (if 0 ≤ s.headroom then offered else 0)
  else if (factor * s.exposure : Nat) ≤ allowance then min offered (allowance.toNat / factor - s.exposure)
  else 0

/-- The kilowatts that an entry of the Need Register may hold (R12). -/
def needInRange (kw : Kw) : Bool := decide (1 ≤ kw ∧ kw ≤ 16000)

/-- A need placed, replaced or cleared. A figure that no entry may hold places nothing (R12, log 52). -/
def State.setNeed (s : State) (source : NeedSource) (kw : Option Kw) : State :=
  if kw.all needInRange then
    s.post fun t =>
      match source with
      | .ae => { t with needs := { t.needs with ae := kw } }
      | .ic => { t with needs := { t.needs with ic := kw } }
  else s

end Sys2Proof.Machine
end

