-- ==== Sys2Proof/Machine/Permits.lean ====
section
/-! DEFINITION. The permit record (02 sections 2.1, 2.2): handles, creation, every passage from one state to another with all
that goes with it (lists, feeder record, generation, overdraw mark, tellings), and the revocation (R59, R61). -/

namespace Sys2Proof.Machine

/-- The feeder that holds a permit. -/
def Permit.feederNo? (p : Permit) : Option FeederNo :=
  match p.holder with
  | some (.feeder f) => some f
  | _ => none

/-- The handle of a slot as it stands (R19). -/
def State.handleOf (s : State) (i : Slot) : Handle := ⟨i.val, (s.permit i).gen⟩

/-- The slot of the live permit a handle names; none is a stale handle (R19). -/
def State.live (s : State) (h : Handle) : Option Slot :=
  (index? 32 h.slot).filter fun i => (s.permit i).state != .free && (s.permit i).gen == h.gen

/-- A feeder's current permit (R19, R50). -/
def State.permitOf (s : State) (f : FeederNo) : Option Slot := (s.feeder f).permit.bind s.live

/-- The generation after a passage to FREE (R19). -/
def nextGen (g : Nat) : Nat := if g < 255 then g + 1 else 1

/-! ## One passage of a permit -/

/-- Whether the overdraw mark of a permit is set (R21). -/
def State.overdrawn (s : State) (p : Permit) : Bool :=
  p.state.charged && p.ofFeeder && decide (p.released * (100 + s.setting .overdrawTolerance) < p.lastDraw * 100)

/-- The overdraw mark after a passage: judged on entry to the four charged states and after every change of the last draw
or of the released kW, and kept otherwise (R21). -/
def State.overdrawAfter (s : State) (old p : Permit) : Bool :=
  if old.state.charged ∧ p.state.charged ∧ old.lastDraw = p.lastDraw ∧ old.released = p.released then old.overdraw
  else s.overdrawn p

/-- A permit record as it stands once it has entered its state: timers and marks of other states are gone (R20), a
reservation's expiry starts with GRANTED (R28), and a slot in FREE holds its raised generation alone (R19). -/
def State.settled (s : State) (old p : Permit) : Permit :=
  if p.state = .free then { gen := nextGen old.gen }
  else
    { p with
      waitDeadline := if p.state = .queued then p.waitDeadline else none
      revokeReason := if p.state = .revoking then p.revokeReason else none
      revokeDeadline := if p.state = .revoking then p.revokeDeadline else none
      expiryLeft :=
        if p.state = .granted then (if old.state = .granted then p.expiryLeft else p.expiryGiven.map secs) else none
      overdraw := s.overdrawAfter old p }

/-- The feeder record's side of a passage: the current permit handle (R19), the shed seconds on leaving SHED (R54), the
unconfirmed revocation on leaving UNVERIFIED (R64). -/
def State.passFeeder (s : State) (i : Slot) (old p : Permit) : State :=
  match p.feederNo? with
  | none => s
  | some f =>
    let r := s.feeder f
    s.setFeeder f
      { r with
        permit := if p.state = .free then none else if old.state = .free then some ⟨i.val, old.gen⟩ else r.permit
        shedSeconds :=
          if old.state = .shed ∧ p.state ≠ .shed then min 65535 (r.shedSeconds + (s.clock - old.shedAt) / 1000)
          else r.shedSeconds
        unconfirmed := if old.state = .unverified ∧ p.state ≠ .unverified then none else r.unconfirmed }

/-- Wait Queue order: class, then arrival, then slot (R20, R32). -/
def State.waitsBefore (s : State) (i j : Slot) : Bool :=
  let a := s.permit i
  let b := s.permit j
  decide (a.cls < b.cls)
    || (a.cls == b.cls && (decide (a.arrival < b.arrival) || (a.arrival == b.arrival && decide (i < j))))

/-- Shed List order: class, then shed time, then feeder number (R67). -/
def State.shedBefore (s : State) (i j : Slot) : Bool :=
  let a := s.permit i
  let b := s.permit j
  let key (p : Permit) : Nat := (p.feederNo?.map Fin.val).getD 24
  decide (a.cls < b.cls)
    || (a.cls == b.cls && (decide (a.shedAt < b.shedAt) || (a.shedAt == b.shedAt && decide (key a < key b))))

/-- The lists' side of a passage: each list holds exactly the permits in its state (R32, R35, R67). -/
def State.relist (s : State) (i : Slot) (was now : PermitState) : State :=
  if was = now then s
  else
    let wait := s.ae.waitQueue.erase i
    let rel := s.ae.releaseList.erase i
    let shed := s.se.shedList.erase i
    { s with
      ae := { s.ae with
        waitQueue := if now = .queued then insertBy s.waitsBefore i wait else wait
        releaseList := if now = .staging then rel ++ [i] else rel }
      se := { s.se with shedList := if now = .shed then insertBy s.shedBefore i shed else shed } }

/-- Whether the release in flight is to the permit of this slot. -/
def State.flightTo (s : State) (i : Slot) : Bool := s.ae.inFlight.any fun fl => fl.handle == s.handleOf i

/-- The tellings of a passage: OVERDRAW when the mark sets (R21); the walk permit's outcome to the IC, for every feeder
permit that leaves STAGING in RESTORE, from which the IC picks its own (R155, log 16); the release-quiet mark (R35); and
the SE's event of a permit entering GRANTED or STAGING (R58), for which the table has no row: it goes as one more balance
update (log 53). -/
def passTellings (before after : State) (i : Slot) : List Instr :=
  let old := before.permit i
  let p := after.permit i
  (if p.overdraw ∧ ¬ old.overdraw then [.noticeRaise .overdraw] else [])
    ++ (if old.state = .staging ∧ p.state ≠ .staging ∧ before.ic.state = .restore
        then [.walkPermitOutcome (before.handleOf i) (p.state == .granted)] else [])
    ++ (if before.ae.releaseList.isEmpty ≠ after.ae.releaseList.isEmpty
        then [.quietMarkChange .release after.ae.releaseList.isEmpty] else [])
    ++ (if old.state ≠ p.state ∧ (p.state = .staging ∨ p.state = .granted) ∧ before.se.state ≠ .idle
        then [.seBalanceUpdate] else [])

/-- The permit in a slot becomes `p`: the one operation that changes a permit record. A passage out of STAGING ends the
release in flight to it uncounted (R38). -/
def State.enter (s : State) (i : Slot) (p : Permit) : State :=
  let old := s.permit i
  let t := ((s.passFeeder i old p).setPermit i (s.settled old p)).relist i old.state p.state
  let t := if s.flightTo i ∧ old.state = .staging ∧ p.state ≠ .staging
    then { t with ae := { t.ae with inFlight := none } } else t
  t.pushAll (passTellings s t i)

/-- A permit passes to FREE, as part of a posting (R19, R10). -/
def State.freed (s : State) (i : Slot) : State := s.enter i { s.permit i with state := .free }

/-- A permit passes to FREE as one forced posting (R10). -/
def State.free (s : State) (i : Slot) : State := s.post fun t => t.freed i

/-! ## Creation -/

/-- The lowest-numbered slot in FREE (R19). -/
def State.freeSlot (s : State) : Option Slot := (indices 32).find? fun i => (s.permit i).state == .free

/-- How many reservations are not FREE (R19, R27). -/
def State.reservations (s : State) : Nat :=
  ((indices 32).filter fun i => (s.permit i).state != .free && (s.permit i).holder == some .station).length

/-- The arrival counter is read and raised; it stops at FFFFFFFFh (R20). -/
def State.arrive (s : State) : State :=
  { s with ae := { s.ae with arrivals := min (s.ae.arrivals + 1) 0xFFFFFFFF } }

/-- The fields of a new permit, its state yet to be decided (R20). -/
def State.newPermit (s : State) (i : Slot) (holder : Holder) (cls : Nat) (kw draw : Kw) (expiry : Option Nat) : Permit :=
  { gen := (s.permit i).gen, holder := some holder, cls := cls, requested := kw, lastDraw := draw,
    arrival := s.ae.arrivals, expiryGiven := expiry }

/-- A refused request's slot: FREE again, its generation raised (R24). -/
def State.burn (s : State) (i : Slot) : State := s.setPermit i { gen := nextGen (s.permit i).gen }

/-- How a request was decided (R24). -/
inductive Decision where
  | admitted (h : Handle)
  | queued (h : Handle)
  | refused (r : Reason)
  deriving DecidableEq, Repr

/-- A request that has passed its tests is admitted, queued or refused (R24). -/
def State.decideRequest (s : State) (holder : Holder) (cls : Nat) (kw draw : Kw) (mayWait : Bool) (wait : Ms)
    (expiry : Option Nat) : Decision × State :=
  match s.freeSlot with
  | none => (.refused .tableFull, s)
  | some i =>
    let h := s.handleOf i
    let p := s.newPermit i holder cls kw draw expiry
    let t := s.arrive
    let offer := if t.ae.waitQueue.any (fun j => (t.permit j).cls ≤ cls) then none
      else t.claim fun u => u.enter i { p with state := if p.ofFeeder then .staging else .granted }
    match offer with
    | some u => (.admitted h, u)
    | none =>
      if mayWait then
        if t.ae.waitQueue.length < 16 then
          (.queued h, t.enter i { p with state := .queued, waitDeadline := some wait, queuedAt := t.clock })
        else (.refused .queueFull, (t.burn i).notice .queueRefusal)
      else (.refused .noHeadroom, t.burn i)

/-! ## Revocation -/

/-- A revocation (R59): REVOKING with an urgent OPEN, or SHED at once for a LADDER revocation of a STAGING permit with
nothing released and nothing in flight. RETIRE always becomes REVOKING (R30). -/
def State.revoke (s : State) (i : Slot) (reason : RevokeReason) : State :=
  let p := s.permit i
  match p.feederNo? with
  | none => s
  | some f =>
    if reason = .ladder ∧ p.state = .staging ∧ p.released = 0 ∧ s.flightTo i = false then
      (s.post fun t => t.enter i { p with state := .shed, shedAt := s.clock }).withdraw (.feeder f) .grant .se
    else
      (s.post fun t => t.enter i
        { p with state := .revoking, revokeReason := some reason
                 revokeDeadline := some (secs (s.setting .revokeLimit)) }).place (.feeder f) (.open_ (some (s.handleOf i))) .se true

/-- The record of a permit whose revocation is confirmed into SHED (R61). -/
def Permit.confirmed (p : Permit) (draw : Kw) (now : Ms) : Permit :=
  { p with state := .shed, released := 0, lastDraw := draw, shedAt := now }

end Sys2Proof.Machine
end

