-- ==== Sys2Proof/Machine/Service.lean ====
section
/-! DEFINITION. The Admission Engine's service of its lists (R36, R40, R41), its orders in feeder slots (R22), its need
(R34), and the judgements that close each of its events. -/

namespace Sys2Proof.Machine

/-! ## The AE's orders -/

/-- Whether a feeder's slot holds an order owned by the SE, where the AE places none (R22). -/
def State.seHolds (s : State) (f : FeederNo) : Bool := (s.slotView (.feeder f)).any fun o => o.2 == .se

/-- The AE places an order in a feeder's slot, unless the SE holds it (R22). -/
def State.aePlace (s : State) (f : FeederNo) (o : Order) : State :=
  if s.seHolds f then s else s.place (.feeder f) o .ae false

/-- The AE empties a feeder's slot of any GRANT, WAIT or DENY it holds there (R26, R48). -/
def State.aeEmpty (s : State) (f : FeederNo) : State :=
  match s.slotView (.feeder f) with
  | some (o, .ae) => s.withdraw (.feeder f) o.kind .ae
  | _ => s

/-- A confirming GRANT: the handle and the released kW as they stand (R39). -/
def State.confirmGrant (s : State) (i : Slot) : State :=
  match (s.permit i).feederNo? with
  | some f => s.aePlace f (.grant (s.handleOf i) (s.permit i).released false)
  | none => s

/-! ## The AE need -/

/-- The Wait Queue head's queue entry time has reached the start demand delay (R34). -/
def State.headDue (s : State) : Option Kw :=
  match s.ae.waitQueue with
  | [] => none
  | i :: _ =>
    if secs (s.setting .startDemandDelay) ≤ s.clock - (s.permit i).queuedAt then some (s.permit i).requested else none

/-- The AE judges its need afresh (R34). -/
def State.judgeNeed (s : State) : State := s.setNeed .ae s.headDue

/-- What the AE's need depends on besides time: the head and its requested kW (R34). -/
def State.headKey (s : State) : Option (Slot × Kw) := s.ae.waitQueue.head?.map fun i => (i, (s.permit i).requested)

/-! ## Serving the lists -/

/-- First step: the Shed List candidate is offered for restoration (R40, R41, R69). -/
def State.serveCandidate (s : State) : State :=
  match s.ae.candidate with
  | none => s
  | some h =>
    let s := { s with ae := { s.ae with candidate := none } }
    match s.live h with
    | none => s.push (.namingEnd .notOffered)
    | some i =>
      let p := s.permit i
      if p.state = .shed ∧ s.active ∧ s.ic.standDown = false then
        match s.claim fun t => t.enter i { p with state := .staging, released := 0 } with
        | some t => (t.confirmGrant i).push (.namingEnd .made)
        | none => s.push (.namingEnd .refused)
      else s.push (.namingEnd .notOffered)

/-- The naming of a candidate, where none is outstanding; the SE's own naming has already set both marks (R69, log 44). -/
def State.named? (s : State) (h : Handle) : State :=
  if s.se.naming.isNone then
    { s with se := { s.se with naming := some h }, ae := { s.ae with candidate := some h } }
  else s

/-- Second step: Wait Queue heads are offered until one is refused or the queue is empty (R40). -/
def State.serveQueue : Nat → State → State
  | 0, s => s
  | n + 1, s =>
    match s.ae.waitQueue with
    | [] => s
    | i :: _ =>
      let p := s.permit i
      match s.claim fun t => t.enter i { p with state := if p.ofFeeder then .staging else .granted } with
      | some t => State.serveQueue n (t.confirmGrant i)
      | none => s

/-- The permit a release goes to: the first on the Release List whose unit is not SILENT and whose slot the SE does not
hold (R36). -/
def State.releaseTarget (s : State) : Option Slot :=
  s.ae.releaseList.find? fun i =>
    match (s.permit i).feederNo? with
    | some f => s.contactOf (.feeder f) != .silent && !s.seHolds f
    | none => false

/-- Third step: a release is made where R36 allows. -/
def State.serveRelease (s : State) : State :=
  if s.ae.stepGuard = none ∧ s.ae.inFlight = none ∧ 0 ≤ s.headroom ∧ 0 < s.stepAcceptance then
    match s.releaseTarget with
    | none => s
    | some i =>
      let p := s.permit i
      match p.feederNo? with
      | none => s
      | some f =>
        let kw := p.released + min (p.requested - p.released) s.stepAcceptance
        let h := s.handleOf i
        let t := { s with ae := { s.ae with inFlight := some { handle := h, feeder := f, kw := kw } } }
        t.place (.feeder f) (.grant h kw true) .ae false
  else s

/-- The AE serves its lists (R40); a new Wait Queue head has its need judged (R34). -/
def State.serve (s : State) : State :=
  let t := s.serveCandidate
  let t := if t.ic.state = .run ∧ t.ic.standDown = false then State.serveQueue t.ae.waitQueue.length t else t
  let t := t.serveRelease
  if s.headKey = t.headKey then t else t.judgeNeed

/-- What an event that touched permits ends with: the need where the head changed (R34), and a service where a permit was
appended to an empty Release List or the release in flight ended uncounted (R38, R40). -/
def State.settleAdmission (before after : State) : State :=
  let t := if before.headKey = after.headKey then after else after.judgeNeed
  if (before.ae.releaseList.isEmpty ∧ ¬ t.ae.releaseList.isEmpty)
      ∨ (before.ae.inFlight.isSome ∧ before.ae.inFlight ≠ t.ae.inFlight)
  then t.serve else t

end Sys2Proof.Machine
end

