-- ==== Sys2Proof/Machine/Shed.lean ====
section
/-! DEFINITION. The Shed Engine (03): ladder, selection, its state, the restore candidate, and its events. -/

namespace Sys2Proof.Machine

/-! ## The ladder and the selection -/

/-- Whether a permit is on the ladder (R53). -/
def State.onLadder (s : State) (i : Slot) : Bool :=
  let p := s.permit i
  match p.feederNo? with
  | none => false
  | some f =>
    (p.state == .granted || p.state == .staging) && decide (1 ≤ p.cls) && s.contactOf (.feeder f) == .inContact
      && !(s.feeder f).isLocal

/-- The shed seconds of a permit's feeder. -/
def State.rotation (s : State) (i : Slot) : Nat :=
  match (s.permit i).feederNo? with
  | some f => (s.feeder f).shedSeconds
  | none => 0

/-- Ladder order: class descending, shed seconds ascending, feeder number ascending (R53). -/
def State.ladderBefore (s : State) (i j : Slot) : Bool :=
  let a := s.permit i
  let b := s.permit j
  let key (p : Permit) : Nat := (p.feederNo?.map Fin.val).getD 24
  decide (b.cls < a.cls)
    || (a.cls == b.cls && (decide (s.rotation i < s.rotation j)
      || (s.rotation i == s.rotation j && decide (key a < key b))))

/-- The ladder, formed afresh at each selection (R53). -/
def State.ladder (s : State) : List Slot := sortBy s.ladderBefore ((indices 32).filter s.onLadder)

/-- The in-flight charge: permits in REVOKING with reason LADDER (03 section 3.3). -/
def State.inFlightCharge (s : State) : Kw :=
  sumOver (fun p => if p.state = .revoking ∧ p.revokeReason = some .ladder then p.charge else 0) s.ae.permits.toList

/-- The net shortfall (03 section 3.3). -/
def State.netShortfall (s : State) : Int := -s.headroom - s.inFlightCharge

/-- The shortest beginning of the ladder whose charges reach `need`, and whether they do (R57). -/
def State.covering (s : State) (need : Int) : List Slot → List Slot × Bool
  | [] => ([], decide (need ≤ 0))
  | i :: l =>
    if need ≤ 0 then ([], true)
    else
      let r := State.covering s (need - (s.permit i).charge) l
      (i :: r.1, r.2)

/-- The SE goes to a state and tells the IC when it leaves IDLE or returns to it (R56). -/
def State.shedTo (s : State) (st : ShedState) : State :=
  let t := { s with se := { s.se with state := st } }
  if (s.se.state = .idle) = (st = .idle) then t else t.push (.seIdleTelling (st == .idle))

/-- A selection (R57). -/
def State.select (s : State) : State :=
  let net := s.netShortfall
  if net ≤ 0 then s.shedTo .shedding
  else
    let r := s.covering net s.ladder
    let t := r.1.foldl (fun u i => u.revoke i .ladder) s
    if r.2 then t.shedTo .shedding
    else if t.se.state = .exhausted then t
    else (t.shedTo .exhausted).notice .ladderExhausted

/-! ## The restore candidate -/

/-- The restore candidate: first in Shed List order, not locked out, SHED for the minimum off time (R68). -/
def State.restoreCandidate (s : State) : Option Slot :=
  s.se.shedList.find? fun i =>
    match (s.permit i).feederNo? with
    | some f => !(s.feeder f).lockout && decide (secs (s.setting .minimumOffTime) ≤ s.clock - (s.permit i).shedAt)
    | none => false

/-- The SE judges the restore candidate and names it where R68 allows. -/
def State.judgeCandidate (s : State) : State :=
  if s.active ∧ s.ic.standDown = false ∧ s.se.state = .idle ∧ s.se.naming = none then
    match s.restoreCandidate with
    | none => s
    | some i =>
      if ((s.permit i).requested + s.setting .restoreMargin : Nat) ≤ s.headroom then
        let h := s.handleOf i
        let t := { s with se := { s.se with naming := some h }, ae := { s.ae with candidate := some h } }
        t.push (.shedListCandidateNamed h)
      else s
  else s

/-! ## The SE's judgement -/

/-- The SE judges its state (R56), then the candidate where it is IDLE (R68), also where it was IDLE already when an island state
is told, which R68's list leaves open (log 87). -/
def State.judgeShed (s : State) : State :=
  let t :=
    if s.active then (if s.headroom < 0 then s.select else s.shedTo .idle)
    else s.shedTo .idle
  t.judgeCandidate

/-- The SE selects again while SHEDDING or EXHAUSTED (R58). IDLE, it makes no judgement on these events, though R56 names every
event of R58, and takes a headroom below 0 by the balance update on its way (log 72), and no candidate is judged (log 87). -/
def State.reselect (s : State) : State := if s.se.state = .idle then s else s.judgeShed

/-- Whether a feeder's slot holds an OPEN, of a revocation or of none. -/
def State.openHeld (s : State) (f : FeederNo) : Bool := (s.slotView (.feeder f)).any fun o => o.1.kind == .open_

/-- The SE places an urgent OPEN that belongs to no permit, unless its own OPEN is already there (R72). -/
def State.openUnlessHeld (s : State) (f : FeederNo) : State :=
  if s.openHeld f then s else s.place (.feeder f) (.open_ none) .se true

/-! ## Reports at the SE -/

/-- Whether a feeder's Restore List entry is at or before the walk pointer (R44). -/
def State.walked (s : State) (f : FeederNo) : Bool :=
  (s.ic.restoreList.take (s.ic.walkPointer + 1)).any fun e => e.feeder == f

/-- Whether a CLOSED report of this feeder would be an unpermitted close: no permit, or one in QUEUED or SHED (R43). -/
def State.unpermitted (s : State) (f : FeederNo) : Bool :=
  match s.permitOf f with
  | none => true
  | some i => (s.permit i).state == .queued || (s.permit i).state == .shed

/-- The report sets the Feeder Table (R51). -/
def State.noteFeeder (s : State) (f : FeederNo) (r : FeederReport) : State :=
  s.setFeeder f { s.feeder f with breaker := if r.closed then .closed else .open_, isLocal := r.isLocal }

/-- A CLOSED report that the SE answers with an OPEN (R44, R72). -/
def State.answerClosed (s : State) (f : FeederNo) (r : FeederReport) : State :=
  if r.closed then
    match s.ic.state with
    | .dark | .restart => s.openUnlessHeld f
    | .restore => if s.unpermitted f && !s.walked f then s.openUnlessHeld f else s
    | .setup | .run => s
  else s

/-- The permit of a feeder whose running revocation an OPEN belongs to, where the report of the same REPLY does not confirm
that revocation (R62). -/
def State.revokedBy (s : State) (f : FeederNo) (o : Order) (r : FeederReport) : Option Slot :=
  match o with
  | .open_ (some h) =>
    (s.permitOf f).filter fun i => s.handleOf i == h && (s.permit i).state == .revoking && r.closed
  | _ => none

/-- A revocation whose OPEN the unit has refused is over: the permit returns to GRANTED or becomes FREE (R62). -/
def State.revocationRefused (s : State) (i : Slot) : State :=
  let p := s.permit i
  if p.released = 0 then s.free i
  else s.post fun t => t.enter i { p with state := .granted, requested := min p.requested p.released }

/-- The feeder's LOCAL flag is set (R62). -/
def State.setLocal (s : State) (f : FeederNo) : State := s.setFeeder f { s.feeder f with isLocal := true }

/-- The unit refuses an OPEN (R62): LOCAL is set, and the revocation that the OPEN belongs to, where it still runs, is over.
An OPEN of an earlier revocation, or of none, changes no permit. -/
def State.openRefused (s : State) (f : FeederNo) (o : Order) (r : FeederReport) : State :=
  match s.revokedBy f o r with
  | some i => (s.setLocal f).revocationRefused i
  | none => s.setLocal f

/-- Whether a refusal of an OPEN ends a LADDER revocation, on which the SE reselects (R58, R62). -/
def State.ladderRefused (s : State) (f : FeederNo) (o : Order) (r : FeederReport) : Bool :=
  (s.revokedBy f o r).any fun i => (s.permit i).revokeReason == some .ladder

/-- The SE selects again where a feeder's LOCAL flag is no longer what it was, or for another reason given (R51, R58). -/
def State.reselectIf (s : State) (f : FeederNo) (wasLocal other : Bool) : State :=
  if (s.feeder f).isLocal ≠ wasLocal ∨ other then s.reselect else s

/-- The report's part of a feeder REPLY at the SE: the record, the OPEN that answers a CLOSED breaker, and the reselection
on a change of the LOCAL flag (R51, R58, R72). -/
def State.seReport (s : State) (f : FeederNo) (r : FeederReport) : State :=
  ((s.noteFeeder f r).answerClosed f r).reselectIf f (s.feeder f).isLocal false

/-- The answer's part: a refusal of an OPEN (R62), and the reselection where a LADDER revocation has ended by it or the LOCAL
flag has changed. A refused OPEN of a RETIRE revocation is followed by no reselection of its own; the change of the LOCAL flag
that comes with it, and the entry into GRANTED, are still events of R51 and R58 (log 54). -/
def State.seAnswer (s : State) (f : FeederNo) (r : FeederReport) (a : Answered) : State :=
  if a.sent.order.kind = .open_ ∧ a.accepted = false then
    (s.openRefused f a.sent.order r).reselectIf f (s.feeder f).isLocal (s.ladderRefused f a.sent.order r)
  else s

/-- The SE takes a feeder REPLY: the contact change, the report, then the answer to its OPEN (R51, R58, R60, R175). -/
def State.seReply (s : State) (d : FeederDelivery) : State :=
  let t := if d.was ≠ .inContact then s.reselect else s
  let t := t.seReport d.feeder d.report
  let t := match d.answer with
    | some a => t.seAnswer d.feeder d.report a
    | none => t
  s.settleAdmission t

/-- The SE judges its state as an event of its own; a release in flight that the selection ended is served again (R38, R40,
R56). -/
def State.seJudges (s : State) : State := s.settleAdmission s.judgeShed

/-- The SE takes a change of contact state (R51). The telling gives the new state alone (R174), so each one is taken as an event
of R58, also from SILENT to LOST and from UNKNOWN (log 31). -/
def State.seContact (s : State) (f : FeederNo) (now : Contact) : State :=
  let t := if now = .lost then s.setFeeder f { s.feeder f with breaker := .unknown } else s
  s.settleAdmission t.reselect

/-! ## Dark entry, deadlines, namings -/

/-- Whether a telling is the naming of a candidate. -/
def isNaming : Instr → Bool
  | .shedListCandidateNamed _ => true
  | _ => false

/-- Any outstanding naming is dropped without answer, one still on its way to the AE with it (R69, R71). -/
def State.dropNaming (s : State) : State :=
  { s with
    events := s.events.filter fun e => !isNaming e
    se := { s.se with naming := none }
    ae := { s.ae with candidate := none } }

/-- Dark entry at the SE: IDLE, no naming, an urgent OPEN to every feeder unit not LOST (R71). -/
def State.seDark (s : State) : State :=
  (indices 24).foldl
    (fun t f => if t.notLost (.feeder f) then t.place (.feeder f) (.open_ none) .se true else t)
    (s.dropNaming.shedTo .idle)

/-- A revoke deadline runs out: the revocation has failed (R63). -/
def State.revokeFailed (s : State) (i : Slot) : State :=
  let p := s.permit i
  match p.feederNo?, p.state with
  | some f, .revoking =>
    let t := (s.post fun t => t.enter i { p with state := .unverified }).notice .revokeFailed
    let t := t.setFeeder f { t.feeder f with unconfirmed := p.revokeReason }
    s.settleAdmission (if p.revokeReason = some .ladder then t.reselect else t)
  | _, _ => s

/-- The AE tells the SE how a naming ended; the SE judges the candidate afresh (R69). -/
def State.namingEnded (s : State) : State := { s with se := { s.se with naming := none } }.judgeCandidate

end Sys2Proof.Machine
end

