-- ==== Sys2Proof/Machine/Admission.lean ====
section
/-! DEFINITION. The Admission Engine's events (02): a feeder REPLY's report, answer and claim, contact changes, deadlines and
expiries, dark entry, and the changes of a permit that station and feeder share (R29, R30). -/

namespace Sys2Proof.Machine

/-! ## Unpermitted closes (R43, R44) -/

/-- Whether a feeder is in the Adoption Set as the AE reads it: a removal already asked for counts as taken (R142). -/
def State.inAdoptionSet (s : State) (f : FeederNo) : Bool :=
  s.ic.state == .run && s.ic.adoptionSet.contains f && !s.events.contains (.adoptionSetRemoval f)

/-- Whether an unpermitted close of a feeder is adopted in this island state (R43, R44). -/
def State.adopts (s : State) (f : FeederNo) : Bool :=
  match s.ic.state with
  | .run => true
  | .restore => s.walked f
  | .setup | .dark | .restart => false

/-- The adoption of an unpermitted close: GRANTED at the reported draw, or at 1 kW, with a confirming GRANT; the notice is
kept back for a member of the Adoption Set (R43, R142). -/
def State.adopt (s : State) (f : FeederNo) (draw : Kw) (quiet : Bool) : State :=
  let kw := max 1 draw
  let made : Option (Slot × Permit × State) :=
    match s.permitOf f with
    | some i => some (i, s.permit i, s)
    | none => s.freeSlot.map fun i => (i, s.newPermit i (.feeder f) (s.feeder f).cls kw draw none, s.arrive)
  match made with
  | none => s
  | some (i, p, t) =>
    let t := t.post fun u => u.enter i { p with state := .granted, requested := kw, released := kw, lastDraw := draw }
    let t := t.confirmGrant i
    if quiet then t else t.notice .unpermittedClose

/-! ## The report (R11, R42 to R46, R61, R64) -/

/-- The SE's OPEN, where it is still in the slot, is withdrawn at the confirmation of its revocation (R61). -/
def State.withdrawOpen (s : State) (f : FeederNo) : State :=
  if s.openHeld f then s.withdraw (.feeder f) .open_ .se else s

/-- A breaker OPEN report takes the permit of a LADDER revocation into SHED (R61, R64). -/
def State.confirmShed (s : State) (i : Slot) (f : FeederNo) (draw : Kw) : State :=
  (s.post fun t => t.enter i ((s.permit i).confirmed draw s.clock)).withdrawOpen f

/-- The report of a feeder taken against its permit: the last draw, and the breaker's effect by permit state. A late OPEN that
frees an UNVERIFIED permit with unconfirmed RETIRE leaves the slot's order where it is (R64, log 64). -/
def State.reportPermit (s : State) (f : FeederNo) (i : Slot) (closed : Bool) (draw : Kw) (quiet : Bool) : State :=
  let p := { s.permit i with lastDraw := draw }
  let drawn := s.post fun t => t.enter i p
  match p.state, closed with
  | .free, _ => s
  | .queued, true | .shed, true => if s.adopts f then s.adopt f draw quiet else drawn
  | .queued, false | .shed, false => drawn
  | .staging, _ => drawn
  | .granted, true => drawn
  | .granted, false => s.free i
  | .revoking, true => drawn
  | .revoking, false =>
    if p.revokeReason = some .retire then (s.free i).withdrawOpen f else s.confirmShed i f draw
  | .unverified, true =>
    if (s.feeder f).unconfirmed.isSome then drawn
    else (s.post fun t => t.enter i { p with state := .granted }).confirmGrant i
  | .unverified, false => if (s.feeder f).unconfirmed = some .ladder then s.confirmShed i f draw else s.free i

/-- The AE takes a feeder report; a member of the Adoption Set is asked out of it (R142). -/
def State.aeReport (s : State) (d : FeederDelivery) : State :=
  let quiet := s.inAdoptionSet d.feeder
  let draw := reading d.report.draw
  let t := if quiet then s.push (.adoptionSetRemoval d.feeder) else s
  match t.permitOf d.feeder with
  | some i => t.reportPermit d.feeder i d.report.closed draw quiet
  | none => if d.report.closed && t.adopts d.feeder then t.adopt d.feeder draw quiet else t

/-! ## The answer (R37 to R39) -/

/-- Whether the release in flight is the one this GRANT carries: the AE tells by the handle and the cumulative kW (log 71). -/
def State.flightHit (s : State) (h : Handle) (kw : Kw) : Bool :=
  s.ae.inFlight.any fun fl => fl.handle == h && fl.kw == kw

/-- No release is in flight. -/
def State.endFlight (s : State) : State := { s with ae := { s.ae with inFlight := none } }

/-- The step guard starts (R37). -/
def State.startGuard (s : State) : State :=
  { s with ae := { s.ae with stepGuard := some (tenths (s.setting .stepGuard)) } }

/-- The slot of the permit for which an accepted release GRANT is counted: live, in STAGING, GRANTED or REVOKING (R37). -/
def State.countsFor (s : State) (h : Handle) : Option Slot :=
  (s.live h).filter fun i =>
    let st := (s.permit i).state
    st == .staging || st == .granted || st == .revoking

/-- The overdraw mark of a permit is judged again, whether or not a figure of it moved (R37). -/
def State.judgeMark (s : State) (i : Slot) : State :=
  let p := s.permit i
  let mark := s.overdrawn p
  let t := s.setPermit i { p with overdraw := mark }
  if mark ∧ ¬ p.overdraw then t.notice .overdraw else t

/-- The AE counts an accepted release, its figure and the step guard, also where the permit's released kW has reached that
figure meanwhile (R37, log 46). A release in flight to another permit stays in flight, its own answer still to
come, while the step guard starts (log 63). -/
def State.countRelease (s : State) (i : Slot) (kw : Kw) : State :=
  let p := s.permit i
  let released := max p.released (min kw p.requested)
  let t := if s.flightTo i then s.endFlight else s
  let t := t.post fun u => u.enter i
    { p with released := released
             state := if p.state = .staging ∧ released = p.requested then .granted else p.state }
  (t.judgeMark i).startGuard

/-- The AE takes the answer to one of its orders: to a release GRANT alone, every other order being answered for information
only (R39, log 46). The flag is set when a release in flight ends uncounted by it, other than by refusal. A refusal, or an
uncounted acceptance, of an earlier release GRANT ends the release in flight where the two carry the same handle and kW, and
changes nothing otherwise (log 71). -/
def State.aeAnswer (s : State) (a : Answered) : State × Bool :=
  match a.sent.order with
  | .grant h kw true =>
    if a.accepted then
      match s.countsFor h with
      | some i => (s.countRelease i kw, false)
      | none => if s.flightHit h kw then (s.endFlight, true) else (s, false)
    else if s.flightHit h kw then (s.endFlight.startGuard, false) else (s, false)
  | _ => (s, false)

/-! ## Changes of a permit (R29, R30) -/

/-- A figure of kW that a request may carry (R23, R27, R29). -/
def kwInRange (kw : Nat) : Bool := decide (1 ≤ kw ∧ kw ≤ 16000)

/-- ADJUST and CHANGE of a live permit to a figure in range, by its state (R25, R29). -/
def State.adjustPermit (s : State) (i : Slot) (kw : Kw) : Except Reason State :=
  let p := s.permit i
  let unflown (t : State) : State := if t.flightTo i then t.endFlight else t
  match p.state with
  | .queued => .ok (s.post fun t => t.enter i { p with requested := kw })
  | .staging | .granted =>
    if kw ≤ p.requested then
      let released := min p.released kw
      .ok ((unflown (s.post fun t => t.enter i
        { p with requested := kw, released := released
                 state := if released = kw then .granted else p.state })).confirmGrant i)
    else if s.ic.state = .restore then .error .restoring
    else if s.ic.standDown then .error .standDown
    else
      match s.claim fun t => t.enter i
          { p with requested := kw, state := if p.ofFeeder then .staging else p.state } with
      | some t => .ok ((unflown t).confirmGrant i)
      | none => .error .noHeadroom
  | .unverified | .revoking | .shed | .free => .error .wrongState

/-- RETIRE of a live permit, by its state (R30, R31). -/
def State.retirePermit (s : State) (i : Slot) : State :=
  let p := s.permit i
  match p.state with
  | .queued =>
    match p.feederNo? with
    | some f => (s.free i).aePlace f (.deny none .retired)
    | none => s.free i
  | .staging | .granted => if p.ofFeeder then s.revoke i .retire else s.free i
  | .unverified | .shed => s.free i
  | .revoking =>
    if p.revokeReason = some .ladder then
      (s.post fun t => t.enter i { p with revokeReason := some .retire }).reselect
    else s
  | .free => s

/-! ## Claims (R22 to R26) -/

/-- The live permit that a claim's handle names, where the claiming feeder holds it (R22). -/
def State.named (s : State) (f : FeederNo) (h : Handle) : Option Slot :=
  (s.live h).filter fun i => (s.permit i).feederNo? == some f

/-- The handle a DENY carries: the one the claim named, where it names a live permit (R22). -/
def State.denied (s : State) (h : Option Handle) : Option Handle := h.filter fun k => (s.live k).isSome

/-- A claim is answered with a DENY, or dropped without answer while the SE holds the slot (R22). A release in flight whose
GRANT the DENY replaces in the slot stays in flight: R38 does not name the AE's own replacement (log 55). -/
def State.deny (s : State) (f : FeederNo) (h : Option Handle) (r : Reason) : State :=
  s.aePlace f (.deny (s.denied h) r)

/-- A new DRAW REQUEST (R23, R24). One that would be answered with a DENY while the SE holds the slot leaves the records
as it found them, and raises no QUEUE REFUSAL where that DENY were QUEUE FULL (R22, R24, log 14). -/
def State.newRequest (s : State) (f : FeederNo) (draw : Kw) (c : DrawClaim) : State :=
  if !kwInRange c.kw || decide (600 < c.waitLimit) then s.deny f c.handle .outOfRange
  else
    match s.ic.state with
    | .setup | .dark | .restart => s.deny f c.handle .notRunning
    | .restore => s.deny f c.handle .restoring
    | .run =>
      if s.ic.standDown then s.deny f c.handle .standDown
      else
        let wait := secs (if c.waitLimit = 0 then s.setting .defaultWaitLimit else c.waitLimit)
        match s.decideRequest (.feeder f) (s.feeder f).cls c.kw draw c.mayWait wait none with
        | (.admitted h, t) => t.aePlace f (.grant h 0 false)
        | (.queued h, t) => t.aePlace f (.wait h wait)
        | (.refused r, t) => if s.seHolds f then s else t.aePlace f (.deny none r)

/-- A CHANGE of a live permit by its feeder (R25). -/
def State.changeRequest (s : State) (f : FeederNo) (i : Slot) (c : DrawClaim) : State :=
  if !kwInRange c.kw then s.deny f c.handle .outOfRange
  else
    match s.adjustPermit i c.kw with
    | .error r => s.deny f c.handle r
    | .ok t =>
      if (s.permit i).state = .queued
      then t.aePlace f (.wait (t.handleOf i) ((t.permit i).waitDeadline.getD 0)) else t

/-- A DRAW REQUEST claim (R22). -/
def State.takeDraw (s : State) (d : FeederDelivery) (c : DrawClaim) : State :=
  match c.handle with
  | some h =>
    match s.named d.feeder h with
    | some i => s.changeRequest d.feeder i c
    | none => s.deny d.feeder c.handle .staleHandle
  | none =>
    match s.permitOf d.feeder with
    | some i => s.changeRequest d.feeder i c
    | none => s.newRequest d.feeder (reading d.report.draw) c

/-- A RELEASE claim, with the state before the report of its REPLY (R26). -/
def State.takeRelease (before s : State) (d : FeederDelivery) (h : Handle) : State :=
  match s.named d.feeder h with
  | some i => if d.report.closed then s.deny d.feeder (some h) .wrongState else (s.free i).aeEmpty d.feeder
  | none =>
    if !d.report.closed && (before.named d.feeder h).isSome then s.aeEmpty d.feeder
    else s.deny d.feeder (some h) .staleHandle

/-! ## Deliveries -/

/-- Whether a feeder's permit is on the Release List. -/
def State.releasing (s : State) (f : FeederNo) : Bool := (s.permitOf f).any fun i => s.ae.releaseList.contains i

/-- A unit returns from SILENT: the lists are served where its feeder's permit is on the Release List (R40). -/
def State.aeReturns (s : State) (d : FeederDelivery) : State :=
  if d.was == .silent && s.releasing d.feeder then s.serve else s

/-- The AE's whole event of a feeder REPLY: contact change, report, answer, claim, then what they call for (R22, R175). -/
def State.aeDelivery (s : State) (d : FeederDelivery) (claim : State → State) : State :=
  let c := s.aeReturns d
  let r := c.aeReport d
  let (u, ended) := match d.answer with
    | some a => r.aeAnswer a
    | none => (r, false)
  let start := { c with ae := { c.ae with inFlight := u.ae.inFlight, releaseList := u.ae.releaseList } }
  let t := start.settleAdmission (claim u)
  if ended then t.serve else t

/-- The AE takes a change of contact: LOST acts on the permit (R45, R65); SILENT has no effect (log 31). -/
def State.aeContact (s : State) (f : FeederNo) (now : Contact) : State :=
  if now ≠ .lost then s
  else
    match s.permitOf f with
    | none => s
    | some i =>
      let p := s.permit i
      let t :=
        match p.state with
        | .granted => s.post fun t => t.enter i { p with state := .unverified }
        | .staging =>
          if 0 < p.released then s.post fun t => t.enter i { p with state := .unverified, requested := p.released }
          else s.free i
        | .queued => s.free i
        | .revoking =>
          let t := (s.post fun t => t.enter i { p with state := .unverified }).notice .revokeFailed
          if p.revokeReason = some .ladder then t.reselect else t
        | .unverified | .shed | .free => s
      s.settleAdmission t

/-- The AE is told that an order of its own is gone: the release in flight, where it was that GRANT, ends uncounted and the
lists are served again (R38, R167). -/
def State.aeGone (s : State) (o : Order) : State :=
  match o with
  | .grant h kw true => if s.flightHit h kw then s.settleAdmission s.endFlight else s
  | _ => s

/-! ## Deadlines and expiries -/

/-- A wait deadline runs out (R33). -/
def State.waitExpired (s : State) (i : Slot) : State :=
  let p := s.permit i
  if p.state = .queued ∧ p.waitDeadline.isSome then
    let t := s.free i
    let t := match p.feederNo? with
      | some f => t.aePlace f (.deny none .waitExpired)
      | none => t
    s.settleAdmission (t.notice .queueRefusal)
  else s

/-- A reservation's expiry runs out (R28). -/
def State.reservationExpired (s : State) (i : Slot) : State :=
  if (s.permit i).state = .granted ∧ (s.permit i).expiryLeft.isSome then s.free i else s

/-- The step guard runs out and the lists are served (R37, R40). -/
def State.guardExpired (s : State) : State :=
  if s.ae.stepGuard.isSome then { s with ae := { s.ae with stepGuard := none } }.serve else s

/-! ## The walk permit, the candidate, dark entry -/

/-- The IC asks for a walk permit: an admission to which neither the Wait Queue order nor the island state refusals apply;
the answer goes back as an event, with the feeder and the kW asked (R153, log 26). A feeder that holds a permit by then, and a
full table, are answered with the refusal (log 42). -/
def State.walkRequest (s : State) (f : FeederNo) (kw : Kw) : State :=
  match s.permitOf f, s.freeSlot with
  | none, some i =>
    let h := s.handleOf i
    let p := s.newPermit i (.feeder f) (s.feeder f).cls kw 0 none
    let t := s.arrive
    match t.claim fun u => u.enter i { p with state := .staging } with
    | some u => s.settleAdmission ((u.confirmGrant i).push (.walkPermitAnswer ⟨f, kw, some h⟩))
    | none => (t.burn i).push (.walkPermitAnswer ⟨f, kw, none⟩)
  | _, _ => s.push (.walkPermitAnswer ⟨f, kw, none⟩)

/-- Dark entry at the AE: one event, one forced posting (R48). -/
def State.aeDark (s : State) : State :=
  let live := (indices 32).filter fun i => (s.permit i).state != .free
  let t := s.post fun u => live.foldl (fun u i => u.freed i) u
  let t := { t with ae := { t.ae with stepGuard := none, inFlight := none, candidate := none } }
  let t := (indices 24).foldl (fun u f => u.aeEmpty f) t
  t.setNeed .ae none

end Sys2Proof.Machine
end

