-- ==== Sys2Proof/Machine/Curtail.lean ====
section
/-! DEFINITION. The Curtailment Unit (05): targets, lowerings, engagement and release, raises claimed at the RA, holds and
their lapse, and the CU's events. -/

namespace Sys2Proof.Machine

/-! ## Arrays -/

/-- Nameplate kW, 0 while undefined. -/
def ArrayRecord.nameplate (a : ArrayRecord) : Kw := (a.definition.map (·.nameplate)).getD 0

/-- Fallback kW, 0 while undefined. -/
def ArrayRecord.fallback (a : ArrayRecord) : Kw := (a.definition.map (·.fallback)).getD 0

/-- A cap in comparisons: UNHELD stands for the nameplate kW (R122). -/
def Cap.level (nameplate : Kw) : Cap → Kw
  | .unheld => nameplate
  | .kw c => c

/-- The current level of an array (R122). -/
def ArrayRecord.currentLevel (a : ArrayRecord) : Kw :=
  match a.ordered with
  | some c => c.level a.nameplate
  | none =>
    match a.state with
    | .held h => h.cap
    | .unheld => a.nameplate
    | .lapsed => a.fallback

/-- The target as a figure (R122). -/
def ArrayRecord.targetLevel (a : ArrayRecord) : Kw := (a.target.getD .unheld).level a.nameplate

/-- Whether an array is HELD. -/
def ArrayRecord.isHeld (a : ArrayRecord) : Bool :=
  match a.state with
  | .held _ => true
  | _ => false

/-- An array is reachable while its unit is IN CONTACT or SILENT (R113). -/
def State.reachable (s : State) (a : ArrayNo) : Bool :=
  s.contactOf (.array a) == .inContact || s.contactOf (.array a) == .silent

/-- The active bank's entry for an array (R117). -/
def State.share (s : State) (a : ArrayNo) : Share :=
  match s.cu.current with
  | .a => s.cu.bankA[a]
  | .b => s.cu.bankB[a]

/-- The defined arrays, in array-number order. -/
def State.definedArrays (s : State) : List ArrayNo := (indices 8).filter fun a => (s.array a).definition.isSome

/-- RUN, RESTORE and DARK HOLD: where the CU places orders (R119). -/
def State.curtails (s : State) : Bool := s.active || s.cu.state == .darkHold

/-- Whether HOLDs that lower are urgent (R127, R133). -/
def State.holdsUrgent (s : State) : Bool :=
  match s.cu.state with
  | .engaged | .disengaging | .darkHold => true
  | .off | .watch => false

/-! ## Orders (R127, R129) -/

/-- The CU places a HOLD at a cap and notes the ordered cap; its length is the hold length setting (R132). -/
def State.placeHold (s : State) (a : ArrayNo) (cap : Kw) (urgent : Bool) : State :=
  (s.setArray a { s.array a with ordered := some (.kw cap) }).place (.array a) (.hold cap (s.setting .holdLength)) .cu urgent

/-- The CU places a RELEASE, always routine. -/
def State.placeRelease (s : State) (a : ArrayNo) : State :=
  (s.setArray a { s.array a with ordered := some .unheld }).place (.array a) .release .cu false

/-- Whether the CU may place an order for an array now: defined, reachable, no refusal mark (R127, R131). -/
def State.mayOrder (s : State) (a : ArrayNo) : Bool :=
  s.curtails && (s.array a).definition.isSome && s.reachable a && !(s.array a).refusal

/-- An array is marked as lowered since it was last offered in a claim (R129, log 51). -/
def State.markLowered (s : State) (a : ArrayNo) : State := s.setArray a { s.array a with lowered := true }

/-- An array's lowering, where its target calls for one (R127). -/
def State.lower (s : State) (a : ArrayNo) : State :=
  let r := s.array a
  if s.mayOrder a && decide (r.targetLevel < r.currentLevel) then
    (s.placeHold a (if r.state = .lapsed then min r.targetLevel r.fallback else r.targetLevel) s.holdsUrgent).markLowered a
  else s

/-- A LAPSED array's fresh HOLD at the lesser of its target and its fallback (R133). -/
def State.freshHold (s : State) (a : ArrayNo) : State :=
  let r := s.array a
  if s.mayOrder a && r.state == .lapsed then s.placeHold a (min r.targetLevel r.fallback) s.holdsUrgent else s

/-- The fresh HOLD of a LAPSED array that has no CU order in its slot (R133). -/
def State.freshIfBare (s : State) (a : ArrayNo) : State :=
  if (s.array a).ordered.isNone then s.freshHold a else s

/-! ## Targets (R122, R123) -/

/-- The sum of weights of the enabled, reachable arrays (R123). -/
def State.weights (s : State) : Nat :=
  sumOver (fun a => if (s.share a).enabled && s.reachable a then (s.share a).weight else 0) s.definedArrays

/-- A defined array's target by CU state (05 section 5.3, R123). -/
def State.targetOf (s : State) (a : ArrayNo) : Option Cap :=
  match (s.array a).definition with
  | none => none
  | some d =>
    let sh := s.share a
    match s.cu.state with
    | .off => some .unheld
    | .watch => some (if sh.limit < d.nameplate then .kw sh.limit else .unheld)
    | .engaged | .disengaging =>
      some (.kw (if sh.enabled && s.reachable a && sh.weight != 0
        then min sh.limit (min d.nameplate (s.ceiling * sh.weight / s.weights)) else 0))
    | .darkHold => some (.kw 0)

/-- Every target worked out afresh (R122). -/
def State.retarget (s : State) : State :=
  { s with cu := { s.cu with arrays := mapTable (fun a r => { r with target := s.targetOf a }) s.cu.arrays } }

/-- Targets afresh, and the lowerings they call for (R122, R127). -/
def State.workTargets (s : State) : State := (indices 8).foldl (fun t a => t.lower a) s.retarget

/-! ## Engagement and release (R124, R125) -/

/-- The sum of the last outputs of the defined arrays. -/
def State.totalOutput (s : State) : Kw := sumOver (fun a => (s.array a).lastOutput) s.definedArrays

/-- Whether WATCH engages (R124). The first test is taken by its words also where the ceiling less the engage level is below 0: a
summed output of 0 is then above it (log 89). -/
def State.engages (s : State) : Bool :=
  decide ((s.ceiling : Int) - s.setting .engageLevel < s.totalOutput) || decide (s.ceiling < s.exposure)

/-- The release condition (R125). -/
def State.releaseHolds (s : State) : Bool :=
  decide (sumOver (fun a => min (s.array a).nameplate (s.share a).limit) s.definedArrays + s.setting .releaseLevel
    ≤ s.ceiling)

/-- ENGAGED or DISENGAGING. -/
def State.engaged (s : State) : Bool := s.cu.state == .engaged || s.cu.state == .disengaging

/-- The release delay's new value. -/
def State.setReleaseDelay (s : State) (t : Timer) : State := { s with cu := { s.cu with releaseDelay := t } }

/-- The CU's judgement of the release condition (R125). -/
def State.judgeRelease (s : State) : State :=
  if s.engaged ∧ s.active then
    if s.releaseHolds then
      (if s.cu.releaseDelay.isSome then s else s.setReleaseDelay (some (secs (s.setting .releaseDelay))))
    else s.setReleaseDelay none
  else s

/-- The CU's judgement of engagement (R124); a change of its state is judged for release as well (R125). -/
def State.judgeEngage (s : State) : State :=
  if s.cu.state = .watch ∧ s.active ∧ s.engages then
    (({ s with cu := { s.cu with state := .engaged } }).notice .curtailEngaged).workTargets.judgeRelease
  else s

/-- Engagement is judged where the exposure has changed since `before` (R124). -/
def State.judgeExposure (before s : State) : State := if s.exposure = before.exposure then s else s.judgeEngage

/-- Both judgements. -/
def State.judgeCurtail (s : State) : State := s.judgeEngage.judgeRelease

/-- The CU takes a ceiling change (R122, R124, R125). -/
def State.ceilingChanged (s : State) : State := s.workTargets.judgeCurtail

/-! ## The release claim (R126) -/

/-- An array's level outside engagement, by the CU state it is released from (R126). -/
def State.releaseLevelOf (s : State) (a : ArrayNo) : Kw :=
  let n := (s.array a).nameplate
  if s.cu.state = .disengaging then n else min n (s.share a).limit

/-- What a release claim offers; a LAPSED array is offered no raise (R126). -/
def State.releaseNeeds (s : State) : List (ArrayNo × Kw) :=
  ((s.definedArrays.filter fun a => (s.array a).state != .lapsed).map fun a =>
    (a, s.releaseLevelOf a - (s.array a).exposure)).filter fun n => n.2 != 0

/-- The CU offers a claim to the RA, whose answer comes back as an event of its own (R128, R129). No array has been lowered
since this claim (log 51). -/
def State.offer (s : State) (k : ClaimKind) (needs : List (ArrayNo × Kw)) : State :=
  ({ s with cu := { s.cu with
      claim := some k, arrays := mapTable (fun _ r => { r with lowered := false }) s.cu.arrays } }).push
    (.posting (.exposureRaise k needs))

/-- The release claim is offered, or waits for an outstanding raise claim's answer (R126). While a release claim is itself
outstanding no second one is offered and none waits: the answer judges the condition afresh (log 66). -/
def State.offerRelease (s : State) : State :=
  match s.cu.claim with
  | none => s.offer .release s.releaseNeeds
  | some .raise => { s with cu := { s.cu with releaseWaiting := true } }
  | some .release => s

/-- The release delay runs out (R125). It is idle from then on, so a further judgement may start it again while the claim it
led to waits or is unanswered (log 73). -/
def State.releaseDelayExpired (s : State) : State :=
  if s.cu.releaseDelay.isSome then
    let t := s.setReleaseDelay none
    if t.engaged ∧ t.active ∧ t.releaseHolds then t.offerRelease else t
  else s

/-- The RA hands an accepted amount out in order: each array takes up to its need (R126, R128). -/
def handOut : Kw → List (ArrayNo × Kw) → List (ArrayNo × Kw)
  | _, [] => []
  | left, (a, need) :: l =>
    let got := min need left
    (a, got) :: handOut (left - got) l

/-- The RA takes an exposure raise: clipped, handed out, and answered (R8, R126, R128). An array that is no longer HELD
takes nothing, and none is raised above its nameplate kW (log 23); a release claim is whole where all that is left of it by
then is accepted (log 74). -/
def State.raiseExposure (s : State) (k : ClaimKind) (needs : List (ArrayNo × Kw)) : State :=
  let held := (needs.filter fun n => (s.array n.1).isHeld).map fun n =>
    (n.1, min n.2 ((s.array n.1).nameplate - (s.array n.1).exposure))
  let offered := sumOver (·.2) held
  let accepted := s.clipRaise offered
  let got := (handOut accepted held).filter fun n => n.2 != 0
  let t := s.post fun u => got.foldl
    (fun u n => u.setArray n.1 { u.array n.1 with claimed := some ((u.array n.1).exposure + n.2) }) u
  let raised := got.map (·.1)
  match k with
  | .raise => t.push (.raiseClaimAnswer raised)
  | .release => t.push (.releaseClaimAnswer (accepted == offered) raised)

/-- A lowering ordered since the claim has passed an array's claimed cap: the target it was ordered for is below that cap
(R129, log 51). -/
def ArrayRecord.passed (r : ArrayRecord) (claimed : Kw) : Bool := r.lowered && decide (r.targetLevel < claimed)

/-- The order for an array whose claimed cap a claim raised (R126, R129). -/
def State.orderRaised (s : State) (a : ArrayNo) : State :=
  let r := s.array a
  match r.claimed with
  | some c =>
    if s.mayOrder a && r.isHeld && s.cu.state != .darkHold && !r.passed c then
      (if r.nameplate ≤ c ∧ r.target = some .unheld then s.placeRelease a else s.placeHold a c false)
    else s
  | none => s

/-- A release claim that waited for the answer to a raise claim is offered (R126), or dropped where the CU no longer releases
(log 88). -/
def State.offerWaiting (s : State) : State :=
  if s.cu.releaseWaiting then
    let t := { s with cu := { s.cu with releaseWaiting := false } }
    if t.engaged ∧ t.active then t.offerRelease else t
  else s

/-- The answer to a raise claim (R129); a waiting release claim is then offered (R126). In WATCH the CU judges engagement on
the exposure where the claim raised any (R124, log 62). -/
def State.raiseAnswered (s : State) (raised : List ArrayNo) : State :=
  let s := { s with cu := { s.cu with claim := none } }
  let t := (raised.foldl (fun u a => u.orderRaised a) s).offerWaiting
  if raised.isEmpty then t else t.judgeEngage

/-- The order that a whole release sends an array (R126): none to a LAPSED, unreachable or refusing one (log 22). The level is
the one of the CU state at the answer, and no more than the exposure then, which an acceptance taken since the claim may have
brought below it (log 58). -/
def State.releaseArray (s : State) (a : ArrayNo) : State :=
  let r := s.array a
  let level := min (s.releaseLevelOf a) r.exposure
  if s.mayOrder a && r.state != .lapsed then
    if level = r.nameplate then s.placeRelease a
    else if level = r.currentLevel then s else s.placeHold a level false
  else s

/-- The answer to a release claim (R126). One taken outside RUN and RESTORE, or outside ENGAGED and DISENGAGING, as in DARK HOLD,
ends the claim and nothing else (log 88). -/
def State.releaseAnswered (s : State) (whole : Bool) (raised : List ArrayNo) : State :=
  let s := { s with cu := { s.cu with claim := none } }
  if !(s.engaged && s.active) then s
  else if whole then
    let t := s.definedArrays.foldl (fun u a => u.releaseArray a) s
    let next : CurtailState := if t.cu.state = .disengaging then .off else .watch
    ((({ t with cu := { t.cu with state := next } }).setReleaseDelay none).notice .curtailReleased).workTargets.judgeEngage
  else
    let t := raised.foldl (fun u a => u.orderRaised a) s
    t.setReleaseDelay (if t.releaseHolds then some (secs (t.setting .releaseDelay)) else none)

/-! ## Raises and renewals at the share-period expiry (R128, R132) -/

/-- Whether an array's target calls for a raise (R128). -/
def State.callsRaise (s : State) (a : ArrayNo) : Bool :=
  let r := s.array a
  s.mayOrder a && r.state != .lapsed && decide (r.currentLevel < r.targetLevel)

/-- An array whose exposure already covers its raise is ordered at its target at once (R128); its HOLD is routine (log 84). -/
def State.orderCovered (s : State) (a : ArrayNo) : State :=
  let r := s.array a
  if s.callsRaise a && decide (r.targetLevel ≤ r.exposure) then
    (if r.target = some .unheld then s.placeRelease a else s.placeHold a r.targetLevel false)
  else s

/-- The raises that targets call for (R128). -/
def State.offerRaises (s : State) : State :=
  if s.active ∧ s.cu.state ≠ .darkHold then
    let needs := ((indices 8).filter s.callsRaise).filterMap fun a =>
      let r := s.array a
      if r.exposure < r.targetLevel then some (a, r.targetLevel - r.exposure) else none
    let t := (indices 8).foldl (fun u a => u.orderCovered a) s
    if needs.isEmpty ∨ t.cu.claim.isSome then t else t.offer .raise needs
  else s

/-- An array's renewal, where it is due (R132). -/
def State.renew (s : State) (a : ArrayNo) : State :=
  let r := s.array a
  match r.state with
  | .held h =>
    if s.mayOrder a && r.ordered.isNone && decide (0 < h.remaining) && decide (h.remaining ≤ h.length / 2)
    then s.placeHold a h.cap false else s
  | _ => s

/-- Renewals that are due. -/
def State.renewals (s : State) : State := (indices 8).foldl (fun t a => t.renew a) s

/-- A pending swap takes effect (R118). -/
def State.swap (s : State) : State :=
  if s.cu.swapPending then
    { s with cu := { s.cu with swapPending := false, current := if s.cu.current = .a then .b else .a } }
  else s

/-- Every refusal mark is cleared. -/
def State.clearRefusals (s : State) : State :=
  { s with cu := { s.cu with arrays := mapTable (fun _ r => { r with refusal := false }) s.cu.arrays } }

/-- An array that has refused an order is ordered again once its mark is cleared: a LAPSED one is given its fresh HOLD
whatever stands in its slot (R133), and in DARK HOLD any other is given its HOLD of 0 (R135), urgent (log 94). What else its
target calls for is ordered with the other arrays' (R131). -/
def State.orderAgain (s : State) (a : ArrayNo) : State :=
  let r := s.array a
  if r.state = .lapsed then s.freshHold a
  else if s.cu.state = .darkHold ∧ r.ordered = none ∧ s.mayOrder a then s.placeHold a 0 true
  else s

/-- The share-period timer runs out (R118, R128). -/
def State.shareExpired (s : State) : State :=
  let refused := (indices 8).filter fun a => (s.array a).refusal
  let t := { s with cu := { s.cu with sharePeriod := secs (s.setting .sharePeriod) } }.swap
  let t := refused.foldl (fun u a => u.orderAgain a) t.clearRefusals.retarget
  let t := t.workTargets
  let t := if s.cu.swapPending then t.judgeRelease else t
  let t := (indices 8).foldl (fun u a => u.freshIfBare a) t
  t.offerRaises.renewals

/-! ## Holds (R116, R130, R131, R133) -/

/-- A hold quantum, in ms. -/
def holdQuantumMs : Ms := 250

/-- A quantum of an array's hold has passed (R132, R133). -/
def State.quantumPassed (s : State) (a : ArrayNo) : State :=
  let r := s.array a
  match r.state with
  | .held h =>
    (s.setArray a { r with state := .held { h with remaining := h.remaining - 1, quantum := holdQuantumMs } }).renewals
  | _ => s

/-- An array becomes LAPSED: its hold and claimed cap are gone, its exposure its fallback (R116, R133). -/
def ArrayRecord.lapse (r : ArrayRecord) : ArrayRecord := { r with state := .lapsed, claimed := none }

/-- A hold has lapsed (R133). -/
def State.holdLapsed (s : State) (a : ArrayNo) : State :=
  if (s.array a).isHeld then
    let t := s.post fun u => u.setArray a (u.array a).lapse
    State.judgeExposure s (t.freshHold a)
  else s

/-- The ordered cap goes with the order: it is kept only while a CU order is in the slot (R113). -/
def State.syncOrdered (s : State) (a : ArrayNo) : State :=
  if (s.slotView (.array a)).isNone then s.setArray a { s.array a with ordered := none } else s

/-- The array's record when its unit accepts an order (R130). -/
def ArrayRecord.accept (r : ArrayRecord) : Order → ArrayRecord
  | .hold cap length =>
    { r with state := .held { cap := cap, remaining := length, length := length, quantum := holdQuantumMs }
             claimed := none }
  | .release => { r with state := .unheld, claimed := none }
  | _ => r

/-- Whether a refused order was the one that carried the array's raise (R131): a HOLD at the claimed cap, or a RELEASE while
there is a claimed cap (log 59). -/
def ArrayRecord.carriedRaise (r : ArrayRecord) : Order → Bool
  | .hold cap _ => r.claimed == some cap
  | .release => r.claimed.isSome
  | _ => false

/-- The array's record when its unit refuses an order (R131). -/
def ArrayRecord.refuse (r : ArrayRecord) (o : Order) : ArrayRecord :=
  { r with refusal := true, claimed := if r.carriedRaise o then none else r.claimed }

/-- The CU takes an answer to one of its orders (R130, R131). One that comes after SET ARRAY has removed the definition changes
nothing (log 85). -/
def State.cuAnswer (s : State) (a : ArrayNo) (ans : Answered) : State :=
  if (s.array a).definition.isNone then s
  else
    (s.post fun u => u.setArray a
      (if ans.accepted then (u.array a).accept ans.sent.order else (u.array a).refuse ans.sent.order)).syncOrdered a

/-- An array has become reachable: targets afresh, and the order its state and target call for (R116, R133, R135). -/
def State.becameReachable (s : State) (a : ArrayNo) : State := s.workTargets.freshIfBare a

/-- The CU takes an array REPLY: contact change, report, answer (R116, R175). In WATCH engagement is judged on the report, and
again on the exposure that the answer leaves (R124, R130); the answered order's ordered cap stands until the answer is taken
(log 78). -/
def State.cuReply (s : State) (d : ArrayDelivery) : State :=
  let t := if d.was = .lost ∨ d.was = .unknown then s.becameReachable d.array else s
  let t := (t.setArray d.array { t.array d.array with lastOutput := reading d.output }).judgeEngage
  match d.answer with
  | some a => (t.cuAnswer d.array a).judgeEngage
  | none => t

/-- An array unit becomes LOST, or SILENT (R116). SILENT from UNKNOWN has become reachable (log 31). -/
def State.cuLost (s : State) (a : ArrayNo) (now : Contact) : State :=
  match now with
  | .lost =>
    let t := s.post fun u =>
      let r := u.array a
      let r := if r.isHeld then r.lapse else r
      u.setArray a { r with ordered := none, refusal := false }
    State.judgeExposure s t.workTargets
  | .silent => if (s.array a).isHeld then s else s.becameReachable a
  | .unknown | .inContact => s

/-- The CU is told that an order of its own is gone from an array's slot: its ordered cap goes with it (R113, R167). -/
def State.cuGone (s : State) (a : ArrayNo) : State := s.syncOrdered a

/-! ## Island states and the CU's commands -/

/-- The IC tells of RUN (R119, R122). -/
def State.cuRun (s : State) (left : IslandState) : State :=
  if left = .setup then (s.workTargets.judgeEngage).judgeRelease else s.workTargets

/-- Dark entry at the CU: DARK HOLD, and an urgent HOLD of 0 to every array not LOST (R134). -/
def State.cuDark (s : State) : State :=
  let resume := if s.cu.state = .darkHold then s.cu.resumeState else some s.cu.state
  let t := { s with cu := { s.cu with
    state := .darkHold, resumeState := resume, releaseDelay := none, releaseWaiting := false
    arrays := mapTable (fun _ r => { r with refusal := false }) s.cu.arrays } }
  t.definedArrays.foldl (fun u a => if u.notLost (.array a) then u.placeHold a 0 true else u) t.retarget

/-- The IC tells of RESTORE: DARK HOLD gives way to the resume state (R135). -/
def State.cuRestore (s : State) : State :=
  let t :=
    if s.cu.state = .darkHold then
      { s with cu := { s.cu with state := s.cu.resumeState.getD .off, resumeState := none } }
    else s
  t.workTargets.judgeCurtail

/-- CURTAIL ON (R120). From DISENGAGING to ENGAGED the targets are the same figures, worked out afresh (R122, log 47), and the
release condition is judged as on any change of the CU state, a running release delay abandoned where it fails (R125, log 83). -/
def State.curtailOn (s : State) : State :=
  match s.cu.state with
  | .off => ({ s with cu := { s.cu with state := .watch } }).workTargets.judgeEngage
  | .watch | .engaged => s
  | .disengaging => ({ s with cu := { s.cu with state := .engaged } }).workTargets.judgeRelease
  | .darkHold =>
    { s with cu := { s.cu with resumeState :=
        match s.cu.resumeState with
        | some .off => some .watch
        | some .disengaging => some .engaged
        | r => r } }

/-- CURTAIL OFF (R121); a change of the CU state works out the targets afresh (R122). -/
def State.curtailOff (s : State) : State :=
  match s.cu.state with
  | .watch => ({ s with cu := { s.cu with state := .off } }).workTargets
  | .engaged => ({ s with cu := { s.cu with state := .disengaging } }).workTargets.judgeRelease
  | .off | .disengaging => s
  | .darkHold => { s with cu := { s.cu with resumeState := some .off } }

/-- SET ARRAY, once its tests are passed (R114). -/
def State.defineArray (s : State) (a : ArrayNo) (nameplate fallback : Kw) : State :=
  let t :=
    if nameplate = 0 then
      let t := match s.slotView (.array a) with
        | some o => s.withdraw (.array a) o.1.kind .cu
        | none => s
      t.post fun u => u.setArray a { addr := (u.array a).addr }
    else s.post fun u => u.setArray a
      { u.array a with definition := some { nameplate := nameplate, fallback := fallback } }
  t.workTargets.judgeCurtail

end Sys2Proof.Machine
end

