-- ==== Sys2Proof/Machine/Lanes.lean ====
section
/-! DEFINITION. The two sequencer lanes (04 sections 4.3, 4.5 to 4.7): where a run begins, the beginning and completion of
each step kind, the sync token, the failure of a run and its abort. -/

namespace Sys2Proof.Machine

/-! ## Gensets -/

/-- RUNNING and BREAKER CLOSED set and TRIPPED clear: found on the bus (R76, R77). -/
def onBus (r : GensetReport) : Bool := r.running && r.closed && !r.tripped

/-- The maximum attempts of a defined genset (R73). -/
def Genset.maxAttempts (g : Genset) : Nat := (g.profile.map (·.maxAttempts)).getD 0

/-- Attempts used after one more, not above the maximum (R97, R99). -/
def Genset.bumped (g : Genset) : Nat := if g.attempts < g.maxAttempts then g.attempts + 1 else g.attempts

/-- Attempts used after one more, whatever the maximum (R96); the field ends at 4 (R73, log 50). -/
def Genset.counted (g : Genset) : Nat := min 4 (g.attempts + 1)

/-- OFF, or FAILED where the attempts used have reached the maximum (R76, R96). -/
def Genset.offOrFailed (g : Genset) : GensetState := if g.maxAttempts ≤ g.attempts then .failed else .off

/-- A rest timer's start (R110). -/
def State.restStart (s : State) : Timer := some (secs (s.setting .restAfterFailure))

/-- A genset record as it becomes ONLINE: its min-run timer starts (R76, R77, R93), and no STOP of a failed run is owed any
more (log 69). A rest timer still running runs on (log 70). -/
def Genset.committed (g : Genset) : Genset :=
  { g with state := .online, minRun := some (secs ((g.profile.map (·.minRun)).getD 0)), stopOwed := false }

/-- A genset becomes ONLINE and its capacity is posted (R10, R93). -/
def State.commit (s : State) (g : GensetNo) : State := s.post fun t => t.setGenset g (t.genset g).committed

/-- The GS places an order in a genset's slot (R75). -/
def State.gsPlace (s : State) (g : GensetNo) (o : Order) (urgent : Bool) : State := s.place (.genset g) o .gs urgent

/-! ## Positions in the store (R82, R84) -/

/-- Step 0 of a slot. -/
def slotStart (slot : Fin 8) : Fin 128 := ⟨slot.val * 16, by omega⟩

/-- The step that follows in circular order. -/
def nextStep (p : Fin 128) : Fin 128 := p + 1

/-- The slot a position lies in. -/
def slotAt (p : Fin 128) : Fin 8 := ⟨p.val / 16, by omega⟩

/-- Where a run begins (R84, R112). -/
def Genset.runStart (g : Genset) (origin : Origin) : Fin 128 :=
  match origin, g.profile.bind (·.dark) with
  | .restart, some d => slotStart d
  | _, _ => if g.pointer.val % 16 = 0 then g.pointer else slotStart (slotAt g.pointer + 1)

/-! ## Runs that end -/

/-- A step kind's order (R90 to R94). -/
def StepKind.order? : StepKind → Option OrderKind
  | .crank => some .crank
  | .sync => some .sync
  | .close => some .close
  | .deadclose => some .deadclose
  | .ramp => some .ramp
  | .await | .wait | .end_ => none

/-- The IC is told of a RESTART run's outcome (R93, R96). -/
def State.tellLead (s : State) (r : Run) (o : LeadOutcome) : State :=
  if r.origin = .restart then s.push (.leadOutcome o) else s

/-- The record keeps the cause of a failed run (R148, log 50). An abort that leaves the genset ONLINE is no failure (R101). -/
def Genset.failedBy (g : Genset) (cause : FailCause) : Genset :=
  if g.state = .online ∧ (cause = .aborted ∨ cause = .busLost) then g else { g with cause := some cause }

/-- A run fails for a cause (R96 to R99): the lane is IDLE and its token mark gone; the lane in TOKEN WAIT is granted the
token by the event that calls this. An abort leaves the genset OFF, never FAILED (R101, log 17). The IC is told of a RESTART
run that fails before its genset is ONLINE, and of none after (R112); R98 and R99 are read under that rule (log 65). A genset
left OFF is owed its STOP until the unit accepts it (R96, log 69). A rest timer still running where a counted failure leaves the
genset FAILED runs on (log 70). -/
def State.failRun (s : State) (lane : LaneId) (cause : FailCause) : State :=
  match s.run lane with
  | none => s
  | some r =>
    let n := r.genset
    let g := (s.genset n).failedBy cause
    let t := (s.setRun lane none).notice .startFailed
    let counted := { g with attempts := g.counted }
    let down := { counted with state := counted.offOrFailed, minRun := none
                               rest := if counted.offOrFailed = .off then s.restStart else g.rest
                               stopOwed := counted.offOrFailed == .off }
    let lost := { g with attempts := g.bumped, state := .unknown, minRun := none, rest := s.restStart, stopOwed := false }
    if (s.genset n).state = .online then
      match cause with
      | .stepLimit | .illegalStep | .readyLost => t.setGenset n { g with attempts := g.bumped }
      | .aborted | .busLost => t
      | .trip => ((t.post fun u => u.setGenset n down).notice .gensetTripped).gsPlace n .stop true
      | .contactLost => t.post fun u => u.setGenset n lost
    else
      let t :=
        match cause with
        | .stepLimit | .illegalStep | .readyLost | .trip => (t.setGenset n down).gsPlace n .stop true
        | .aborted | .busLost => (t.setGenset n { g with state := .off, rest := s.restStart, stopOwed := true }).gsPlace n .stop true
        | .contactLost => t.setGenset n lost
      t.tellLead r (.failed n cause)

/-- A run ends by a legal END (R94). -/
def State.endRun (s : State) (lane : LaneId) (r : Run) : State :=
  let g := s.genset r.genset
  (s.setRun lane none).setGenset r.genset
    { g with attempts := 0, pointer := (g.profile.map fun p => slotStart p.primary).getD g.pointer }

/-- A CLOSE or DEADCLOSE has closed the breaker: ONLINE, posted, and the IC told of a RESTART run, unless the genset was
ONLINE already (R93). -/
def State.breakerClosed (s : State) (r : Run) : State :=
  if (s.genset r.genset).state = .online then s else (s.commit r.genset).tellLead r (.online r.genset)

/-! ## Steps -/

/-- What is left to do in an event: a lane begins its next step, or a free token goes to the lane in TOKEN WAIT. -/
inductive Work where
  | next (lane : LaneId)
  | grant
  deriving DecidableEq, Repr

/-- The condition an AWAIT argument names (09 section 9.4). -/
def awaited (arg : Nat) (r : GensetReport) : Bool :=
  match arg with
  | 1 => r.running
  | 2 => r.voltsOk
  | 3 => r.warm
  | 4 => r.ready
  | _ => false

/-- The lane withdraws its step's order where the slot still holds it (R95). -/
def State.withdrawStep (s : State) (r : Run) : State :=
  match r.inFlight.bind (·.step.kind.order?) with
  | none => s
  | some k =>
    if (s.slotView (.genset r.genset)).any (fun o => o.1.kind == k) then s.withdraw (.genset r.genset) k .gs else s

/-- The step in flight completes; the next is begun on the same event (R89). -/
def State.completeStep (s : State) (lane : LaneId) (r : Run) (k : StepKind) : State × List Work :=
  let s := s.withdrawStep r
  match k with
  | .close | .deadclose =>
    ((s.setRun lane (some { r with token := false, closeOrdered := false })).breakerClosed r, [.grant, .next lane])
  | _ => (s, [.next lane])

/-- The run fails and frees the token (R96). -/
def State.failing (s : State) (lane : LaneId) (cause : FailCause) : State × List Work :=
  (s.failRun lane cause, [.grant])

/-- A CLOSE or DEADCLOSE is ordered by a lane that holds the token, or completes at once on a breaker already reported
CLOSED (R93). -/
def State.orderClose (s : State) (lane : LaneId) (r : Run) (k : StepKind) (o : Order) : State × List Work :=
  if (s.genset r.genset).report.closed then (s.setRun lane (some r)).completeStep lane r k
  else ((s.setRun lane (some { r with closeOrdered := true })).gsPlace r.genset o false, [])

/-- A lane has the token: its limit starts and the step proceeds (R91 to R93). -/
def State.granted (s : State) (lane : LaneId) (r : Run) : State × List Work :=
  match r.inFlight with
  | none => (s, [])
  | some f =>
    let r := { r with token := true, state := .stepping, stepTimer := some (tenths f.step.limit) }
    match f.step.kind with
    | .sync =>
      let t := s.setRun lane (some r)
      if (s.genset r.genset).report.synced then t.completeStep lane r .sync
      else (t.gsPlace r.genset .sync false, [])
    | .deadclose => s.orderClose lane r .deadclose .deadclose
    | _ => (s, [])

/-- Whether the other lane holds the token (R91). -/
def State.tokenElsewhere (s : State) : LaneId → Bool
  | .a => s.gs.laneB.any (·.token)
  | .b => s.gs.laneA.any (·.token)

/-- A lane asks for the token (R91). One that already holds it is granted it again, and its limit starts at once (log 56). -/
def State.askToken (s : State) (lane : LaneId) (r : Run) : State × List Work :=
  if s.tokenElsewhere lane then (s.setRun lane (some { r with state := .tokenWait }), []) else s.granted lane r

/-- A lane begins its next step (R89), or is HELD. A RAMP waits for a further report, also where the report at hand, that which
completed the CLOSE included, meets it already (log 93). -/
def State.beginStep (s : State) (lane : LaneId) (r : Run) : State × List Work :=
  let g := s.genset r.genset
  if !g.report.ready then
    (s.setRun lane (some { r with state := .held, inFlight := none, stepTimer := none
                                  readyWait := some (secs (s.setting .readyWait)) }), [])
  else
    let pos := g.pointer
    let step := s.gs.store[pos]
    let r := { r with state := .stepping, inFlight := some { pos := pos, step := step }, stepTimer := none
                      readyWait := none }
    let timed := { r with stepTimer := some (tenths step.limit) }
    let s := s.setGenset r.genset { g with pointer := nextStep pos }
    let t := s.setRun lane (some r)
    let u := s.setRun lane (some timed)
    match step.kind with
    | .crank =>
      if g.report.running then t.completeStep lane r .crank else (u.gsPlace r.genset .crank false, [])
    | .await => if awaited step.arg g.report then t.completeStep lane r .await else (u, [])
    | .wait => (u, [])
    | .sync => if s.ic.heldLive then t.askToken lane r else t.failing lane .illegalStep
    | .close => if r.token then s.orderClose lane timed .close .close else t.failing lane .illegalStep
    | .deadclose =>
      if s.ic.state = .restart ∧ s.ic.lead = some r.genset ∧ s.ic.heldLive = false then t.askToken lane r
      else t.failing lane .illegalStep
    | .ramp =>
      if g.state = .online then (u.gsPlace r.genset (.ramp step.arg) false, []) else t.failing lane .illegalStep
    | .end_ => if g.state = .online then (t.endRun lane r, [.grant]) else t.failing lane .illegalStep

/-- The lane in TOKEN WAIT, of which there is at most one. -/
def State.waitingLane (s : State) : Option (LaneId × Run) :=
  match s.gs.laneA.filter (·.state == .tokenWait), s.gs.laneB.filter (·.state == .tokenWait) with
  | some r, _ => some (.a, r)
  | none, some r => some (.b, r)
  | none, none => none

/-- One piece of work. -/
def State.work (s : State) : Work → State × List Work
  | .next lane =>
    match s.run lane with
    | some r => s.beginStep lane r
    | none => (s, [])
  | .grant =>
    match s.waitingLane with
    | some (lane, r) => if s.tokenElsewhere lane then (s, []) else s.granted lane r
    | none => (s, [])

/-- The work of one event, up to a bound that only a program that would run for ever inside the event can reach (log 18). -/
def State.pump : Nat → List Work → State → State
  | 0, _, s => s
  | _, [], s => s
  | n + 1, w :: ws, s =>
    let r := s.work w
    State.pump n (r.2 ++ ws) r.1

/-- The bound of one event's work (log 18): each of the two lanes begins at most 1,024 steps before it comes to one a second
time as it came to it before, and a step is at most two pieces of work. -/
def workLimit : Nat := 4096

/-- Do what an outcome leaves to do. -/
def State.finish (r : State × List Work) : State := State.pump workLimit r.2 r.1

/-- A lane takes a genset and begins its run (R84, R87, R112). A rest timer still running runs on through the run (log 70). -/
def State.takeLane (s : State) (lane : LaneId) (g : GensetNo) (origin : Origin) : State :=
  let rec_ := s.genset g
  let t := s.setGenset g { rec_ with state := .starting, pointer := rec_.runStart origin }
  State.finish (t.setRun lane (some { genset := g, origin := origin, state := .stepping }), [.next lane])

/-! ## Reports, limits and aborts at a lane -/

/-- Whether a report completes the step in flight (R90 to R94). -/
def Genset.completes (g : Genset) (step : ProgStep) : Bool :=
  match step.kind with
  | .crank => g.report.running
  | .await => awaited step.arg g.report
  | .wait | .end_ => false
  | .sync => g.report.synced
  | .close | .deadclose => g.report.closed && !g.report.tripped
  | .ramp => decide (step.arg * ((g.profile.map (·.rated)).getD 0) ≤ g.report.output * 100)

/-- A report reaches a genset in a lane (R89 to R94, R98, R102). -/
def State.laneReport (s : State) (lane : LaneId) : State :=
  match s.run lane with
  | none => s
  | some r =>
    let g := s.genset r.genset
    if g.report.tripped || (g.state == .online && !g.report.closed) then State.finish (s.failing lane .trip)
    else
      match r.state with
      | .held => if g.report.ready then State.finish (s, [.next lane]) else s
      | .tokenWait => s
      | .aborting =>
        if g.report.closed then
          State.finish ((((s.withdrawStep r).setRun lane none).breakerClosed r).notice .startFailed, [.grant])
        else s
      | .stepping =>
        match r.inFlight with
        | some f => if g.completes f.step then State.finish (s.completeStep lane r f.step.kind) else s
        | none => s

/-- The unit refuses an order: only a close awaited in ABORTING is ended by it (R95, R102), told by the order's kind
alone (log 81). -/
def State.laneRefusal (s : State) (lane : LaneId) (o : Order) : State :=
  match s.run lane with
  | none => s
  | some r =>
    if r.state = .aborting ∧ r.inFlight.bind (·.step.kind.order?) = some o.kind
    then State.finish (s.failing lane .aborted) else s

/-- A step limit runs out (R90 to R94, R102). -/
def State.stepExpired (s : State) (lane : LaneId) : State :=
  match s.run lane with
  | none => s
  | some r =>
    match r.stepTimer, r.inFlight with
    | some _, some f =>
      if r.state = .aborting then State.finish (s.failing lane .aborted)
      else
        match f.step.kind with
        | .wait | .ramp => State.finish (s.completeStep lane r f.step.kind)
        | _ => State.finish (s.failing lane .stepLimit)
    | _, _ => s

/-- The ready-wait timer runs out (R89). -/
def State.readyExpired (s : State) (lane : LaneId) : State :=
  match s.run lane with
  | none => s
  | some r => if r.readyWait.isSome then State.finish (s.failing lane .readyLost) else s

/-- A station abort: it waits for the outcome of a close already ordered (R100 to R102). -/
def State.stationAbort (s : State) (lane : LaneId) : State :=
  match s.run lane with
  | none => s
  | some r =>
    if r.state = .aborting then s
    else if r.closeOrdered ∧ (s.genset r.genset).state ≠ .online
    then s.setRun lane (some { r with state := .aborting })
    else State.finish (s.failing lane .aborted)

end Sys2Proof.Machine
end

