-- ==== Sys2Proof/Machine/Gensets.lean ====
section
/-! DEFINITION. The Genset Sequencer (04): demand selection and take-up, the stop condition and the stop sequence, and the
GS's events. Each event ends with `settleGensets`, which makes the judgements that its changes call for. -/

namespace Sys2Proof.Machine

/-! ## The Start Queue (R85, R86) -/

/-- Rated kW of a genset, 0 while undefined. -/
def Genset.rated (g : Genset) : Kw := (g.profile.map (·.rated)).getD 0

/-- A genset leaves the Start Queue. -/
def State.unqueue (s : State) (g : GensetNo) : State :=
  { s with gs := { s.gs with queue := s.gs.queue.filter fun e => e.genset != g } }

/-- Whether a genset is in the Start Queue. -/
def State.queued (s : State) (g : GensetNo) : Bool := s.gs.queue.any fun e => e.genset == g

/-- The covered capacity (R86). -/
def State.covered (s : State) : Kw :=
  sumOver (fun g => if g.state = .starting then g.rated else 0) s.gs.gensets.toList
    + sumOver (fun e => (s.genset e.genset).rated) s.gs.queue

/-- Whether demand selection may append a genset (R86). -/
def State.eligible (s : State) (g : GensetNo) : Bool :=
  let r := s.genset g
  r.profile.isSome && r.state == .off && r.rest.isNone && !s.queued g

/-- The merit of a genset. -/
def Genset.merit (g : Genset) : Nat := (g.profile.map (·.merit)).getD 6

/-- Eligible gensets in order of merit. -/
def State.eligibles (s : State) : List GensetNo :=
  sortBy (fun g h => decide ((s.genset g).merit < (s.genset h).merit)) ((indices 6).filter s.eligible)

/-- Append eligible gensets until the covered capacity reaches capacity wanted (R86). -/
def State.append (wanted : Kw) : List GensetNo → State → State
  | [], s => s
  | g :: l, s =>
    if s.covered < wanted then
      State.append wanted l { s with gs := { s.gs with queue := s.gs.queue ++ [{ genset := g, origin := .demand }] } }
    else s

/-- The last DEMAND entry of the queue. -/
def State.lastDemand (s : State) : Option QueueEntry := s.gs.queue.reverse.find? fun e => e.origin == .demand

/-- Trim DEMAND entries from the tail while what is left still covers capacity wanted (R86). -/
def State.trim (wanted : Kw) : Nat → State → State
  | 0, s => s
  | n + 1, s =>
    match s.lastDemand with
    | none => s
    | some e =>
      if wanted + (s.genset e.genset).rated ≤ s.covered then State.trim wanted n (s.unqueue e.genset) else s

/-- Whether queue and demand are served: RUN or RESTORE, and no stand-down (R86, R87). -/
def State.starts (s : State) : Bool := s.active && !s.ic.standDown

/-- The GS judges demand (R86). -/
def State.judgeDemand (s : State) : State :=
  if s.starts then
    let wanted := s.capacityWanted
    if s.covered < wanted then s.append wanted s.eligibles
    else if wanted = 0 then
      { s with gs := { s.gs with queue := s.gs.queue.filter fun e => e.origin != .demand } }
    else s.trim wanted s.gs.queue.length
  else s

/-- An IDLE lane takes the queue's head (R87). -/
def State.takeHead (s : State) (lane : LaneId) : State :=
  match s.starts, s.run lane, s.gs.queue with
  | true, none, e :: l => { s with gs := { s.gs with queue := l } }.takeLane lane e.genset e.origin
  | _, _, _ => s

/-- Both lanes in turn, A first (R87). -/
def State.takeUp (s : State) : State := (s.takeHead .a).takeHead .b

/-! ## The stop condition (R104) -/

/-- How many gensets are in a state. -/
def State.countIn (s : State) (st : GensetState) : Nat := (s.gs.gensets.toList.filter fun g => g.state == st).length

/-- Whether a genset is ONLINE and in no lane. -/
def State.stoppable (s : State) (g : GensetNo) : Bool := (s.genset g).state == .online && (s.laneOf g).isNone

/-- The ONLINE genset, in no lane, of the highest merit number, where its min-run timer has run out (R104). -/
def State.stopCandidate? (s : State) : Option GensetNo :=
  let higher (g h : GensetNo) : Bool := decide ((s.genset h).merit < (s.genset g).merit)
  (sortBy higher ((indices 6).filter s.stoppable)).head?.filter fun g => (s.genset g).minRun == some 0

/-- The stop condition, with its candidate (R104). -/
def State.stopHolds (s : State) : Option GensetNo :=
  if s.setting .autoStop = 1 ∧ s.ic.state = .run ∧ 2 ≤ s.countIn .online ∧ s.capacityWanted = 0
      ∧ s.gs.queue.isEmpty ∧ s.gs.laneA.isNone ∧ s.gs.laneB.isNone ∧ s.countIn .stopping = 0
  then s.stopCandidate?.filter fun g => decide (((s.genset g).rated + s.setting .stopLevel : Nat) ≤ s.headroom)
  else none

/-- The stop delay is idle, with no candidate noted. -/
def State.dropStop (s : State) : State := { s with gs := { s.gs with stopDelay := none, stopCandidate := none } }

/-- The GS judges the stop condition: it starts, keeps or abandons the stop delay (R104). Where the candidate has changed,
the delay abandoned for the old one starts for the new one in the same judgement (log 57). -/
def State.judgeStop (s : State) : State :=
  match s.stopHolds with
  | none => s.dropStop
  | some g =>
    if s.gs.stopDelay.isSome ∧ s.gs.stopCandidate = some g then s
    else { s with gs := { s.gs with stopDelay := some (secs (s.setting .stopDelay)), stopCandidate := some g } }

/-! ## The stop sequence (R105 to R107) -/

/-- The phase limit (R106). -/
def phaseLimit : Ms := secs 60

/-- A stop is decided: the capacity leaves the account and the sequence begins (R105). -/
def State.decideStop (s : State) (g : GensetNo) : State :=
  let r := s.genset g
  let t := s.post fun u => u.setGenset g
    { r with state := .stopping, phase := some .unloading, minRun := none, phaseLimit := some phaseLimit }
  let t := t.gsPlace g .unload false
  if s.gs.stopCandidate = some g then t.dropStop else t

/-- A genset enters SHUTTING, with its STOP (R106). -/
def State.enterShutting (s : State) (g : GensetNo) (urgent : Bool) : State :=
  (s.setGenset g { s.genset g with phase := some .shutting, coolDown := none, phaseLimit := some phaseLimit }).gsPlace
    g .stop urgent

/-- A genset enters COOLING, and passes on to SHUTTING at once with a cool-down time of 0 (R106). -/
def State.enterCooling (s : State) (g : GensetNo) : State :=
  let r := s.genset g
  let time := secs ((r.profile.map (·.coolDown)).getD 0)
  if time = 0 then s.enterShutting g false
  else s.setGenset g { r with phase := some .cooling, coolDown := some time, phaseLimit := none }

/-- A genset enters OPENING, with its OPEN BREAKER (R106). -/
def State.enterOpening (s : State) (g : GensetNo) : State :=
  (s.setGenset g { s.genset g with phase := some .opening, phaseLimit := some phaseLimit }).gsPlace g .openBreaker false

/-- A genset leaves STOPPING for another state (R106, R107). -/
def Genset.stopped (g : Genset) (st : GensetState) : Genset :=
  { g with state := st, phase := none, coolDown := none, phaseLimit := none }

/-- A report reaches a STOPPING genset (R106, R107). One report passes at most one phase it waits for (log 30). -/
def State.stopReport (s : State) (g : GensetNo) : State :=
  let r := s.genset g
  if r.report.tripped then (s.setGenset g { r.stopped .off with rest := s.restStart }).notice .gensetTripped
  else
    match r.phase with
    | some .unloading =>
      if !r.report.closed then s.enterCooling g
      else if r.report.output ≤ (r.profile.map (·.minimum)).getD 0 then s.enterOpening g
      else s
    | some .opening => if !r.report.closed then s.enterCooling g else s
    | some .shutting => if !r.report.running then s.setGenset g (r.stopped .off) else s
    | some .cooling | none => s

/-- The phase limit runs out, or the unit refuses the phase's order (R106). -/
def State.phaseEnds (s : State) (g : GensetNo) : State :=
  match (s.genset g).phase with
  | some .unloading => s.enterOpening g
  | some .opening => s.enterShutting g true
  | some .shutting => s.enterShutting g true
  | some .cooling | none => s

/-- The order a stop phase waits on (R106). -/
def StopPhase.order : StopPhase → Option Order
  | .unloading => some .unload
  | .opening => some .openBreaker
  | .shutting => some .stop
  | .cooling => none

/-! ## What an event ends with -/

/-- Both lanes IDLE and no genset STOPPING (R111). -/
def State.sequencerIdle (s : State) : Bool :=
  s.gs.laneA.isNone && s.gs.laneB.isNone && decide (s.countIn .stopping = 0)

/-- A genset has entered a state between two states of the part. -/
def entered (st : GensetState) (before after : State) : Bool :=
  (indices 6).any fun g => (after.genset g).state == st && (before.genset g).state != st

/-- A genset has left a state. -/
def left (st : GensetState) (before after : State) : Bool := entered st after before

/-- A lane has returned to IDLE, for good or to take another genset. -/
def laneFreed (before after : State) : Bool :=
  (before.gs.laneA.isSome && after.gs.laneA.isNone) || (before.gs.laneB.isSome && after.gs.laneB.isNone)

/-- Judge demand where its events call for it and take up the queue, until nothing more comes of it (R86, R87). Demand
comes first, so the head of the queue may be trimmed before a freed lane takes it (log 80). The flag
is set when a run that was taken up has already ended and freed its lane, and when the take-up emptied the queue: both have
the stop condition judged (R104). -/
def State.serveStarts : Nat → Bool → State → State × Bool
  | 0, _, s => (s, false)
  | n + 1, due, s =>
    let t := if due then s.judgeDemand else s
    let a := t.takeHead .a
    let b := a.takeHead .b
    if t.gs.queue.length = b.gs.queue.length then (t, false)
    else
      let freed := laneFreed t b || laneFreed a b || (t.gs.queue.length != a.gs.queue.length && a.gs.laneA.isNone)
        || (a.gs.queue.length != b.gs.queue.length && b.gs.laneB.isNone)
      let r := State.serveStarts n (freed || entered .off t b) b
      (r.1, freed || b.gs.queue.isEmpty || r.2)

/-- The judgements with which a GS event ends: demand (R86), take-up (R87), the stop condition (R104) and the
sequencer-quiet telling (R111). -/
def State.settleGensets (before : State) (demand stop : Bool) (s : State) : State :=
  let due := demand || entered .off before s || laneFreed before s
  let (t, taken) := State.serveStarts 16 due s
  let judge := stop || taken || entered .online before t || left .online before t || laneFreed before s
    || laneFreed s t || left .stopping before t || (!before.gs.queue.isEmpty && t.gs.queue.isEmpty)
  let u := if judge then t.judgeStop else t
  if before.sequencerIdle = u.sequencerIdle then u else u.push (.quietMarkChange .sequencer u.sequencerIdle)

/-! ## The GS's events -/

/-- A report settles an UNKNOWN genset that is defined (R76). -/
def State.settleUnknown (s : State) (g : GensetNo) : State :=
  let r := s.genset g
  if r.profile.isNone then s
  else if onBus r.report then (if s.active then s.commit g else s)
  else s.setGenset g { r with state := r.offOrFailed }

/-- An ONLINE genset in no lane has tripped (R78). -/
def State.onlineTrip (s : State) (g : GensetNo) : State :=
  let r := s.genset g
  (s.post fun u => u.setGenset g { r with state := .off, minRun := none, rest := s.restStart }).notice .gensetTripped

/-- The report's part of a genset REPLY (R75). -/
def State.gsReport (s : State) (g : GensetNo) (report : GensetReport) : State :=
  let s := s.setGenset g { s.genset g with report := report }
  match s.laneOf g with
  | some lane => s.laneReport lane
  | none =>
    match (s.genset g).state with
    | .unknown => s.settleUnknown g
    | .online => if report.tripped || !report.closed then s.onlineTrip g else s
    | .stopping => s.stopReport g
    | .off | .starting | .failed | .locked => s

/-- The answer to the STOP of a failed run: once it is accepted nothing is owed, and refused it is placed again, urgent, while
the genset is OFF. Where a newer order of the GS stands in the slot, the answer changes nothing (R96, log 69). -/
def State.stopAnswered (s : State) (g : GensetNo) (accepted : Bool) : State :=
  if (s.slotView (.genset g)).isSome then s
  else if accepted then s.setGenset g { s.genset g with stopOwed := false }
  else if (s.genset g).state = .off then s.gsPlace g .stop true
  else s

/-- The answer's part: a refusal of a stop phase's order, or of a close awaited in ABORTING (R95, R102, R106), and the answer
to a STOP that a failed run has left (R96). That a refusal is of the phase's own order is told by the order alone, not by its
number (log 91). A refusal of dark entry's OPEN BREAKER brings nothing: it is not placed again
(log 79). -/
def State.gsAnswer (s : State) (g : GensetNo) (a : Answered) : State :=
  match s.laneOf g with
  | some lane => if a.accepted then s else s.laneRefusal lane a.sent.order
  | none =>
    if a.accepted = false ∧ (s.genset g).phase.bind StopPhase.order = some a.sent.order then s.phaseEnds g
    else if (s.genset g).stopOwed ∧ a.sent.order = .stop then s.stopAnswered g a.accepted
    else s

/-- The GS takes a genset REPLY, the report first (R75, R175). -/
def State.gsReply (s : State) (d : GensetDelivery) : State :=
  let t := s.gsReport d.genset d.report
  let t := match d.answer with
    | some a => t.gsAnswer d.genset a
    | none => t
  State.settleGensets s false false t

/-- A genset unit becomes LOST (R79, R99, R107); SILENT leaves everything as it was. -/
def State.gsLost (s : State) (g : GensetNo) (now : Contact) : State :=
  if now ≠ .lost then s
  else
    let r := s.genset g
    let t :=
      match s.laneOf g with
      | some lane => State.finish (s.failing lane .contactLost)
      | none =>
        match r.state with
        | .online => s.post fun u => u.setGenset g { r with state := .unknown, minRun := none }
        | .off => (s.unqueue g).setGenset g { r with state := .unknown }
        | .stopping => s.setGenset g (r.stopped .unknown)
        | .unknown | .starting | .failed | .locked => s
    State.settleGensets s false false t

/-- A min-run timer runs out (R104). -/
def State.minRunExpired (s : State) (g : GensetNo) : State :=
  let r := s.genset g
  if r.minRun.isSome then State.settleGensets s false true (s.setGenset g { r with minRun := some 0 }) else s

/-- A rest timer runs out (R110). -/
def State.restExpired (s : State) (g : GensetNo) : State :=
  let r := s.genset g
  if r.rest.isSome then State.settleGensets s true false (s.setGenset g { r with rest := none }) else s

/-- The stop delay runs out (R105). -/
def State.stopDelayExpired (s : State) : State :=
  match s.gs.stopDelay, s.gs.stopCandidate with
  | some _, some g =>
    let t := s.dropStop
    State.settleGensets s false false (if s.stopHolds = some g then t.decideStop g else t)
  | _, _ => s

/-- A phase limit runs out (R106). -/
def State.phaseLimitExpired (s : State) (g : GensetNo) : State :=
  if (s.genset g).phaseLimit.isSome then State.settleGensets s false false (s.phaseEnds g) else s

/-- A cool-down timer runs out (R106). -/
def State.coolDownExpired (s : State) (g : GensetNo) : State :=
  if (s.genset g).coolDown.isSome then State.settleGensets s false false (s.enterShutting g false) else s

/-- A lane event, with the judgements after it. -/
def State.laneEvent (s : State) (f : State → State) : State := State.settleGensets s false false (f s)

/-- Whether an adoption takes a genset (R77). -/
def State.adoptable (s : State) (g : GensetNo) : Bool :=
  let r := s.genset g
  r.profile.isSome && (r.state == .off || r.state == .unknown) && s.contactOf (.genset g) == .inContact
    && onBus r.report && !(s.slotView (.genset g)).any (fun o => o.1 == .stop || o.1 == .openBreaker)

/-- An adoption, as one forced gain, answered to the IC (R77). -/
def State.adoption (s : State) (why : AdoptionWhy) : State :=
  let found := (indices 6).filter s.adoptable
  let t := s.post fun u => found.foldl
    (fun u g => (u.unqueue g).setGenset g { (u.genset g).committed with rest := none }) u
  State.settleGensets s true false (t.push (.adoptionAnswer why found))

/-- The IC asks for a lead start (R112). -/
def State.leadRequest (s : State) (g : GensetNo) : State :=
  if s.gs.laneA.isSome ∨ (s.genset g).profile.isNone ∨ (s.genset g).state ≠ .off then
    s.push (.leadOutcome (.refused g))
  else State.settleGensets s false false ((s.unqueue g).takeLane .a g .restart)

/-- The IC aborts the lead's run (R103): it lands at once even where its close is ordered. -/
def State.leadAbort (s : State) (g : GensetNo) : State :=
  match s.laneOf g with
  | some lane =>
    if (s.run lane).any (·.origin == .restart) then
      State.settleGensets s false false (State.finish (s.failing lane .aborted))
    else s
  | none => s

/-- Dark entry at the GS: lanes aborted, every ONLINE genset OFF as one forced posting, STOPPING gensets to SHUTTING
(R107, R111). -/
def State.gsDark (s : State) : State :=
  let t := (s.failRun .a .busLost).failRun .b .busLost
  let online := (indices 6).filter fun g => (t.genset g).state == .online
  let t := t.post fun u => online.foldl
    (fun u g => u.setGenset g { u.genset g with state := .off, minRun := none }) u
  let t := online.foldl (fun u g => u.gsPlace g .openBreaker true) t
  let t := { t with gs := { t.gs with queue := [] } }.dropStop
  let stopping := (indices 6).filter fun g => (t.genset g).state == .stopping
  stopping.foldl (fun u g => u.enterShutting g true) t

/-- The GS takes the telling of a new island state (R86, R104, R111). -/
def State.gsIsland (s : State) (new : IslandState) : State :=
  match new with
  | .dark => State.settleGensets s false true s.gsDark
  | .run | .restore => State.settleGensets s true true s
  | .setup | .restart => State.settleGensets s false true s

end Sys2Proof.Machine
end

