-- ==== Sys2Proof/Machine/Island.lean ====
section
/-! DEFINITION. The Island Controller (06, and R196 of 10): changes of the island state, the held bus, restart rounds and live
decisions, the restore walk, and stand-down. -/

namespace Sys2Proof.Machine

/-! ## Changes of the island state (R138) -/

/-- The tellings of a new state, besides the notice: to the RA, the AE, the SE, the GS, the CU and the FLC (R138). A block
that has no rule for a state is told nothing of it; their order here is the model's (log 40). -/
def tellings (left new : IslandState) : List Instr :=
  [.raIslandState left new]
    ++ (match new with
      | .dark => [.aeDarkEntry, .seDarkEntry, .gsIslandState .dark, .cuDarkEntry]
      | .run => [.seIslandState .run, .gsIslandState .run, .cuRunEntry left]
      | .restart => [.seIslandState .restart, .gsIslandState .restart]
      | .restore => [.seIslandState .restore, .gsIslandState .restore, .cuRestoreEntry]
      | .setup => [])
    ++ [.flcIslandState new]

/-- The IC sets a new island state, raises ISLAND STATE and tells the blocks (R138). -/
def State.enterIsland (s : State) (new : IslandState) : State :=
  ({ s with ic := { s.ic with state := new } }).pushAll (.noticeRaise .islandState :: tellings s.ic.state new)

/-- The IC clears its own need, where it has one (R143, R154, R157). -/
def State.clearIcNeed (s : State) : State := if s.needs.ic.isSome then s.setNeed .ic none else s

/-- The walk is over: its phase, permit and settle timer are removed and its pointer returns to 0 (R143, R157). -/
def State.dropWalk (s : State) : State :=
  { s with ic := { s.ic with walkPhase := none, walkPermit := none, settle := none, walkPointer := 0 } }

/-- The restart holdoff starts (R144). -/
def State.startHoldoff (s : State) : State :=
  { s with ic := { s.ic with holdoff := some (secs (s.setting .restartHoldoff)) } }

/-- Entry to DARK (R143). -/
def State.enterDark (s : State) : State :=
  let t := s.clearIcNeed.dropWalk
  let t := { t with ic := { t.ic with
    standDown := false, complete := false, adoptionSet := [], leadIndex := 0, lead := none, decision := none } }
  let t := if t.ic.heldLive then t else t.startHoldoff
  t.enterIsland .dark

/-- Entry to RUN from RESTORE (R157). -/
def State.enterRun (s : State) : State :=
  let t := s.clearIcNeed.dropWalk
  ({ t with ic := { t.ic with rounds := 0 } }).enterIsland .run

/-! ## The restore walk (R152 to R155) -/

/-- The walk is paused while the SE is not IDLE and while stand-down is in force (R152). -/
def State.paused (s : State) : Bool := s.se.state != .idle || s.ic.standDown

/-- The walk's phase. -/
def State.toPhase (s : State) (p : WalkPhase) : State := { s with ic := { s.ic with walkPhase := some p } }

/-- The entry at the walk pointer. -/
def State.entryHere (s : State) : Option RestoreEntry := s.ic.restoreList[s.ic.walkPointer]?

/-- The kW the walk asks for an entry (R151, R153). -/
def State.pickupOf (s : State) (e : RestoreEntry) : Kw := if e.pickup = 0 then (s.feeder e.feeder).pickup else e.pickup

/-- The skip test (R153). -/
def State.skips (s : State) (e : RestoreEntry) : Bool :=
  (s.feeder e.feeder).lockout || (s.feeder e.feeder).addr.isNone || s.contactOf (.feeder e.feeder) != .inContact
    || s.pickupOf e == 0

/-- The skip mark of the entry at the pointer is set. -/
def State.markSkip (s : State) : State :=
  { s with ic := { s.ic with
    restoreList := s.ic.restoreList.modify s.ic.walkPointer fun e => { e with skip := true } } }

/-- The walk permit, or none. -/
def State.setWalkPermit (s : State) (h : Option Handle) : State := { s with ic := { s.ic with walkPermit := h } }

/-- The pointer rises by one and the phase is NEXT (R152). -/
def State.advanced (s : State) : State :=
  { s with ic := { s.ic with
    walkPointer := s.ic.walkPointer + 1, walkPhase := some .next, walkPermit := none, settle := none } }

/-- The entry at the pointer is taken (R153), and those after it as long as the walk advances; past the end the island
enters RUN (R152). The bound is never reached: each turn of it raises the pointer. -/
def State.takeEntry : Nat → State → State
  | 0, s => s
  | n + 1, s =>
    match s.entryHere with
    | none => s.enterRun
    | some e =>
      if s.skips e then State.takeEntry n s.clearIcNeed.markSkip.advanced
      else
        match s.permitOf e.feeder with
        | some i =>
          let t := (s.clearIcNeed).setWalkPermit (some (s.handleOf i))
          match (s.permit i).state with
          | .granted =>
            if e.settle = 0 then State.takeEntry n t.advanced
            else { t.toPhase .settle with ic := { (t.toPhase .settle).ic with settle := some (secs e.settle) } }
          | .staging => t.toPhase .waitGrant
          | _ => State.takeEntry n t.markSkip.advanced
        | none => s.push (.walkPermitRequest e.feeder (s.pickupOf e))

/-- The walk takes the entry at the pointer now. -/
def State.walkOn (s : State) : State := State.takeEntry (s.ic.restoreList.length + 2) s

/-- The walk advances, and takes the next entry on the same event (R152). -/
def State.walkAdvance (s : State) : State := s.advanced.walkOn

/-- The settle timer of the entry at the pointer starts; a delay of 0 advances the walk on the same event, or when the
pause it falls in ends (R152, R155, log 37). -/
def State.startSettle (s : State) : State :=
  let delay := secs ((s.entryHere.map (·.settle)).getD 0)
  if delay = 0 ∧ s.paused = false then s.walkAdvance
  else
    let t := s.toPhase .settle
    { t with ic := { t.ic with settle := some delay } }

/-- The end of a pause (R152): NEXT and WAIT FIT take their entry afresh, whether or not an earlier claim for it is still to
be answered; an entry that ended or settled during the pause advances. -/
def State.resumeWalk (s : State) : State :=
  if s.ic.state ≠ .restore ∨ s.paused then s
  else
    match s.ic.walkPhase with
    | some .next | some .waitFit => s.walkOn
    | some .waitGrant => if s.ic.walkPermit.isNone then s.walkAdvance else s
    | some .settle => if s.ic.settle = some 0 then s.walkAdvance else s
    | none => s

/-- A headroom rise while the IC need is present: each takes the entry afresh (R154). -/
def State.headroomRose (s : State) : State :=
  if s.ic.state = .restore ∧ s.ic.walkPhase = some .waitFit ∧ s.paused = false then s.walkOn else s

/-- The walk waits for the answer to a claim for a feeder: it is the feeder of the entry at the pointer, in NEXT or
WAIT FIT (R153, R154). An answer to a claim of an earlier stay in RESTORE is told apart by nothing else (log 90). -/
def State.walkAwaits (s : State) (f : FeederNo) : Bool :=
  s.ic.state == .restore && (s.ic.walkPhase == some .next || s.ic.walkPhase == some .waitFit)
    && s.entryHere.any fun e => e.feeder == f

/-- The AE's answer to a claim for a walk permit (R153, R154). A claim that fits clears the need and gives WAIT GRANT; the
first refusal places the need at the figure asked, and a further one leaves it as it is. -/
def State.walkAnswered (s : State) (f : FeederNo) (kw : Kw) (answer : Option Handle) : State :=
  if s.walkAwaits f then
    match answer with
    | some h => ((s.clearIcNeed).setWalkPermit (some h)).toPhase .waitGrant
    | none => if s.ic.walkPhase = some .waitFit then s else (s.toPhase .waitFit).setNeed .ic (some kw)
  else s

/-- A feeder permit has left STAGING in RESTORE; the IC acts on its own walk permit (R155, log 16). -/
def State.walkOutcome (s : State) (h : Handle) (granted : Bool) : State :=
  if s.ic.state = .restore ∧ s.ic.walkPhase = some .waitGrant ∧ s.ic.walkPermit = some h then
    if granted then s.startSettle
    else
      let t := (s.markSkip).setWalkPermit none
      if t.paused then t else t.walkAdvance
  else s

/-- The settle timer runs out; during a pause it is taken as run out (R152, R155). -/
def State.settleExpired (s : State) : State :=
  if s.ic.settle.isSome then
    if s.paused then { s with ic := { s.ic with settle := some 0 } } else s.walkAdvance
  else s

/-! ## Entry to RESTORE and to RESTART (R147, R152, R196) -/

/-- Start of the live-bus confirm timer, and of the dead-bus one (R139). -/
def State.liveStart (s : State) : Timer := some (tenths (s.setting .liveBusConfirm))
def State.deadStart (s : State) : Timer := some (tenths (s.setting .deadBusConfirm))

/-- The confirm timers at the entry into RESTORE: with the held bus DEAD, the one of BUSLIVE's level runs from the entry
(R196); with it LIVE, the repeated confirmation of R146 is over. -/
def State.restoreTimers (s : State) : State :=
  if s.ic.heldLive then { s with ic := { s.ic with liveConfirm := none } }
  else if s.pins.buslive then { s with ic := { s.ic with liveConfirm := s.liveStart, deadConfirm := none } }
  else { s with ic := { s.ic with liveConfirm := none, deadConfirm := s.deadStart } }

/-- An entry with its skip mark clear (R152). -/
def RestoreEntry.unskipped (e : RestoreEntry) : RestoreEntry := { e with skip := false }

/-- Entry to RESTORE: the skip marks are cleared and the walk begins (R152). -/
def State.enterRestore (s : State) : State :=
  let t := { s with ic := { s.ic with
    restoreList := s.ic.restoreList.map RestoreEntry.unskipped, walkPointer := 0, walkPhase := some .next, walkPermit := none, settle := none
    foreignLive := false, decision := none, lead := none } }
  let t := t.restoreTimers.enterIsland .restore
  if t.ic.restoreList.isEmpty then t.enterRun else if t.paused then t else t.walkOn

/-- The IC asks the GS for the lead at the lead index (R147). -/
def State.askLead (s : State) (g : GensetNo) : State :=
  ({ s with ic := { s.ic with lead := some g } }).push (.leadStartRequest g)

/-- Entry to RESTART (R147). -/
def State.enterRestart (s : State) : State :=
  let t := ({ s with ic := { s.ic with leadIndex := 0, holdoff := none, decision := none } }).enterIsland .restart
  match t.ic.leadOrder with
  | g :: _ => t.askLead g
  | [] => t

/-! ## The held bus (R139, R140, R196) -/

/-- BUSLIVE takes a level (R139, R146, R196). -/
def State.busChanged (s : State) (live : Bool) : State :=
  let t := { s with pins := { s.pins with buslive := live } }
  if s.pins.buslive = live then t
  else if t.ic.heldLive then
    if live then { t with ic := { t.ic with deadConfirm := none } }
    else { t with ic := { t.ic with deadConfirm := t.deadStart, liveConfirm := none } }
  else if live then { t with ic := { t.ic with liveConfirm := t.liveStart, deadConfirm := none } }
  else { t with ic := { t.ic with liveConfirm := none, deadConfirm := if t.active then t.deadStart else none } }

/-- A dead-bus confirmation (R139, R140). -/
def State.deadConfirmed (s : State) : State :=
  if s.ic.deadConfirm.isNone then s
  else
    let t := { s with ic := { s.ic with deadConfirm := none, heldLive := false } }
    match t.ic.state with
    | .run | .restore => t.enterDark
    | .dark => ({ t with ic := { t.ic with foreignLive := false, liveConfirm := none } }).startHoldoff
    | .setup | .restart => t

/-- A live-bus confirmation (R139, R140, R146, R149). -/
def State.liveConfirmed (s : State) : State :=
  if s.ic.liveConfirm.isNone then s
  else
    let t := { s with ic := { s.ic with liveConfirm := none, heldLive := true } }
    match t.ic.state with
    | .setup | .run | .restore => t
    | .dark =>
      let t := { t with ic := { t.ic with
        holdoff := none, liveConfirm := if t.ic.foreignLive ∧ t.pins.buslive then t.liveStart else none } }
      t.push (.adoptionRequest .dark)
    | .restart =>
      if t.ic.decision.isSome then t
      else
      let t := { t with ic := { t.ic with decision := some {} } }
      t.pushAll ((t.ic.lead.map Instr.icLaneAbort).toList ++ [.adoptionRequest .decision])

/-- The bus is live from a source the part does not command (R146, R149). -/
def State.markForeign (s : State) : State :=
  ({ s with ic := { s.ic with
    foreignLive := true, liveConfirm := if s.pins.buslive then s.liveStart else s.ic.liveConfirm } }).notice .foreignLive

/-! ## Restart rounds and live decisions (R144, R148, R149) -/

/-- The restart holdoff runs out (R144). -/
def State.holdoffExpired (s : State) : State :=
  if s.ic.holdoff.isNone then s
  else
    let t := { s with ic := { s.ic with holdoff := none } }
    if t.ic.state = .dark ∧ t.setting .autoRestart = 1 ∧ t.ic.suspended = false ∧ t.ic.leadOrder ≠ []
        ∧ t.ic.heldLive = false
    then t.enterRestart else t

/-- A round with no lead left (R148). -/
def State.roundFailed (s : State) : State :=
  let n := min 5 (s.ic.rounds + 1)
  let t := { s with ic := { s.ic with
    rounds := n, suspended := s.ic.suspended || decide (s.setting .restartRounds ≤ n) } }
  (t.notice .restartFailed).enterDark

/-- The next lead is asked for, or the round has failed (R148). -/
def State.nextLead (s : State) : State :=
  let t := { s with ic := { s.ic with leadIndex := s.ic.leadIndex + 1 } }
  match t.ic.leadOrder[t.ic.leadIndex]? with
  | some g => t.askLead g
  | none => t.roundFailed

/-- A live decision with both its answers is made (R149). -/
def State.judgeDecision (s : State) (d : LiveDecision) : State :=
  let t := { s with ic := { s.ic with decision := some d } }
  match d.lead, d.adoption with
  | some lead, some adopted =>
    let t := { s with ic := { s.ic with decision := none } }
    if t.ic.heldLive = false then ({ t with ic := { t.ic with foreignLive := false } }).enterDark
    else if lead || adopted then t.enterRestore
    else t.markForeign.enterDark
  | _, _ => t

/-- The genset and the success a lead's outcome names. -/
def outcomeOf : LeadOutcome → GensetNo × Bool
  | .online g => (g, true)
  | .failed g _ => (g, false)
  | .refused g => (g, false)

/-- The IC takes the outcome of the current lead (R148, R149). -/
def State.leadEnded (s : State) (o : LeadOutcome) : State :=
  let (g, online) := outcomeOf o
  if s.ic.state = .restart ∧ s.ic.lead = some g then
    match s.ic.decision with
    | some d => s.judgeDecision { d with lead := some (d.lead.getD online) }
    | none => if online then s.enterRestore else s.nextLead
  else s

/-- The IC takes the GS's adoption answer (R146, R149). In DARK it takes one that was asked for in an earlier stay there as the
present one's (log 75). -/
def State.adoptionAnswered (s : State) (why : AdoptionWhy) (adopted : List GensetNo) : State :=
  match why with
  | .run => s
  | .dark =>
    if s.ic.state ≠ .dark then s
    else if !adopted.isEmpty then s.enterRestore
    else if s.ic.foreignLive then s else s.markForeign
  | .decision =>
    match s.ic.decision with
    | some d => if s.ic.state = .restart then s.judgeDecision { d with adoption := some (!adopted.isEmpty) } else s
    | none => s

/-! ## Leaving SETUP (R141, R142) -/

/-- The feeders found closed when RUN is executed (R142). -/
def State.foundClosed (s : State) : List FeederNo :=
  (indices 24).filter fun f => s.contactOf (.feeder f) == .inContact && (s.feeder f).breaker == .closed

/-- The island leaves SETUP (R141). The adoption is asked for ahead of the tellings, so that the GS makes it before it
judges demand (R111, log 40). -/
def State.leaveSetup (s : State) : State :=
  if s.ic.heldLive then
    (({ s with ic := { s.ic with adoptionSet := s.foundClosed } }).push (.adoptionRequest .run)).enterIsland .run
  else s.enterDark

/-- A feeder leaves the Adoption Set (R142). -/
def State.unadopt (s : State) (f : FeederNo) : State :=
  { s with ic := { s.ic with adoptionSet := s.ic.adoptionSet.filter fun k => k != f } }

/-! ## Stand-down (R158) -/

/-- The IC judges whether stand-down is complete (R158). -/
def State.judgeComplete (s : State) : State :=
  let now := s.ic.standDown && s.ic.releaseQuiet && s.ic.sequencerQuiet
  let t := { s with ic := { s.ic with complete := now } }
  if now && !s.ic.complete then t.notice .standDownComplete else t

/-- A quiet mark changes (R158). -/
def State.quietChanged (s : State) (mark : QuietMark) (quiet : Bool) : State :=
  let ic :=
    match mark with
    | .release => { s.ic with releaseQuiet := quiet }
    | .sequencer => { s.ic with sequencerQuiet := quiet }
  ({ s with ic := ic }).judgeComplete

/-- STAND DOWN, once it is taken (R158). -/
def State.beginStandDown (s : State) : State :=
  if s.ic.standDown then s else ({ s with ic := { s.ic with standDown := true } }).judgeComplete

/-- RESUME: the AE serves its lists, the SE judges the candidate, the GS judges demand, and the walk resumes, in one event
(R47, R68, R86, R152, R158, log 25). -/
def State.endStandDown (s : State) : State :=
  if s.ic.standDown then
    let t := { s with ic := { s.ic with standDown := false, complete := false } }
    let t := t.serve.judgeCandidate
    (State.settleGensets t true false t).resumeWalk
  else s

/-! ## What the RA and the SE are told -/

/-- The RA raises SHORTFALL where RUN or RESTORE is entered below 0 (R16). -/
def State.raIsland (s : State) (left new : IslandState) : State :=
  if (new = .run ∨ new = .restore) ∧ left ≠ .run ∧ left ≠ .restore ∧ s.headroom < 0 then s.notice .shortfall else s

end Sys2Proof.Machine
end

