-- ==== Sys2Proof/Machine/Operands.lean ====
section
/-! DEFINITION. The operand forms (09): numbers in bytes, coded values, the two CRCs, loop frames built and read, and station
requests read. -/

namespace Sys2Proof.Machine

/-! ## Numbers in bytes: least significant byte first -/

/-- The low byte of a number. -/
def byteOf (n : Nat) : Byte := BitVec.ofNat 8 n

/-- A number in two bytes. -/
def le2 (n : Nat) : List Byte := [byteOf n, byteOf (n / 256)]

/-- A number in four bytes. -/
def le4 (n : Nat) : List Byte := [byteOf n, byteOf (n / 256), byteOf (n / 65536), byteOf (n / 16777216)]

/-- A signed number in four bytes, two's complement: headroom (09). -/
def le4Signed (n : Int) : List Byte := le4 (BitVec.ofInt 32 n).toNat

/-- The byte at a place. -/
def at1 (p : List Byte) (k : Nat) : Nat := (p.getD k 0).toNat

/-- The two-byte number at a place. -/
def at2 (p : List Byte) (k : Nat) : Nat := at1 p k + 256 * at1 p (k + 1)

/-- The four-byte number at a place. -/
def at4 (p : List Byte) (k : Nat) : Nat := at2 p k + 65536 * at2 p (k + 2)

/-- The handle at a place. -/
def atHandle (p : List Byte) (k : Nat) : Handle := ⟨at1 p k, at1 p (k + 1)⟩

/-- A time remaining in 0.1 s, rounded up (log 3). -/
def tenthsLeft (t : Ms) : Nat := (t + 99) / 100

/-- A timer in four bytes: FFFFFFFFh when idle or absent (09 section 9.2). -/
def timerBytes : Timer → List Byte
  | none => le4 0xFFFFFFFF
  | some t => le4 (tenthsLeft t)

/-! ## The CRCs (R194, R195) -/

/-- `f` applied `n` times. -/
def times {α : Type} : Nat → (α → α) → α → α
  | 0, _, a => a
  | n + 1, f, a => times n f (f a)

/-- One bit of the CRC-8, generator 07h. -/
def crc8Bit (c : BitVec 8) : BitVec 8 := if c.msb then (c <<< 1) ^^^ 0x07#8 else c <<< 1

/-- The CRC-8 of a list of bytes: start 00h, most significant bit first, no inversion (R194). -/
def crc8 (bs : List Byte) : Byte := bs.foldl (fun c b => times 8 crc8Bit (c ^^^ b)) 0#8

/-- One bit of the CRC-16, generator 1021h. -/
def crc16Bit (c : BitVec 16) : BitVec 16 := if c.msb then (c <<< 1) ^^^ 0x1021#16 else c <<< 1

/-- The CRC-16 of a list of bytes: start FFFFh, most significant bit first, no inversion (R195). -/
def crc16 (bs : List Byte) : BitVec 16 :=
  bs.foldl (fun c b => times 8 crc16Bit (c ^^^ BitVec.shiftLeft (b.zeroExtend 16) 8)) 0xFFFF#16

/-! ## Coded values (09 section 9.2, 08 section 8.3, 07 section 7.4) -/

def reasonCode : Reason → Byte
  | .protected_ => 0x01 | .noHeadroom => 0x02 | .tableFull => 0x03 | .queueFull => 0x04 | .staleHandle => 0x05
  | .wrongState => 0x06 | .slotBusy => 0x07 | .bankActive => 0x08 | .notRunning => 0x09 | .restoring => 0x0A
  | .standDown => 0x0B | .targetBusy => 0x0C | .outOfRange => 0x0D | .config => 0x0E | .waitExpired => 0x0F
  | .retired => 0x10

def Status.code : Status → Byte
  | .done => 0x00 | .refused => 0x01 | .busy => 0x02 | .checkError => 0x03 | .unknownCommand => 0x04
  | .formatError => 0x05

def islandCode : IslandState → Byte
  | .setup => 0 | .run => 1 | .dark => 2 | .restart => 3 | .restore => 4

def PermitState.code : PermitState → Byte
  | .free => 0 | .queued => 1 | .staging => 2 | .granted => 3 | .unverified => 4 | .revoking => 5 | .shed => 6

def revokeCode : Option RevokeReason → Byte
  | none => 0 | some .ladder => 1 | some .retire => 2

def BreakerState.code : BreakerState → Byte
  | .open_ => 0 | .closed => 1 | .unknown => 2

def GensetState.code : GensetState → Byte
  | .unknown => 0 | .off => 1 | .starting => 2 | .online => 3 | .stopping => 4 | .failed => 5 | .locked => 6

def phaseCode : Option StopPhase → Byte
  | none => 0 | some .unloading => 1 | some .opening => 2 | some .cooling => 3 | some .shutting => 4

def RunState.code : RunState → Byte
  | .stepping => 1 | .tokenWait => 2 | .held => 3 | .aborting => 4

def ArrayState.code : ArrayState → Byte
  | .unheld => 0 | .held _ => 1 | .lapsed => 2

def CurtailState.code : CurtailState → Byte
  | .off => 0 | .watch => 1 | .engaged => 2 | .disengaging => 3 | .darkHold => 4

def ShedState.code : ShedState → Byte
  | .idle => 0 | .shedding => 1 | .exhausted => 2

def contactCode : Contact → Byte
  | .unknown => 0 | .inContact => 1 | .silent => 2 | .lost => 3

/-- The unit kind of a bound record, or VACANT. -/
def kindCode : Option UnitRec → Byte
  | none => 0 | some (.feeder _) => 1 | some (.genset _) => 2 | some (.array _) => 3

/-- The number of a bound record. -/
def recordNo : UnitRec → Nat
  | .feeder f => f.val
  | .genset g => g.val
  | .array a => a.val

def blockCode : Block → Byte
  | .ae => 0 | .se => 1 | .gs => 2 | .cu => 3

def originCode : Origin → Byte
  | .demand => 0 | .station => 1 | .restart => 2

def laneCode : Option LaneId → Byte
  | none => 0xFF | some .a => 0 | some .b => 1

/-- A holder byte: the feeder number, or 80h for STATION. -/
def holderCode : Holder → Byte
  | .feeder f => byteOf f.val
  | .station => 0x80

def handleBytes (h : Handle) : List Byte := [byteOf h.slot, byteOf h.gen]

/-- A handle or its absent value FFh, 00h. -/
def optHandleBytes : Option Handle → List Byte
  | none => [0xFF, 0x00]
  | some h => handleBytes h

/-- A cap or target: FFFFh for UNHELD. -/
def capBytes : Cap → List Byte
  | .unheld => le2 0xFFFF
  | .kw c => le2 c

/-- Flags in a byte or two, bit 0 first. -/
def flagsOf (l : List Bool) : Nat := l.foldr (fun b n => (if b then 1 else 0) + 2 * n) 0

/-- The marks of a genset report, bit 0 to bit 6. -/
def reportMarks (r : GensetReport) : Byte :=
  byteOf (flagsOf [r.running, r.voltsOk, r.warm, r.ready, r.synced, r.closed, r.tripped])

def StepKind.code : StepKind → Byte
  | .end_ => 0 | .crank => 1 | .await => 2 | .wait => 3 | .sync => 4 | .close => 5 | .deadclose => 6 | .ramp => 7

/-- The kind a step's code names; none above 07h (09 section 9.4). -/
def stepKind? : Nat → Option StepKind
  | 0 => some .end_ | 1 => some .crank | 2 => some .await | 3 => some .wait | 4 => some .sync | 5 => some .close
  | 6 => some .deadclose | 7 => some .ramp | _ => none

/-- The four bytes of a step (09 section 9.4). -/
def stepBytes (p : ProgStep) : List Byte := [p.kind.code, byteOf p.arg] ++ le2 p.limit

/-- A mark byte of a request or a claim: 00h or 01h; any other is open (log 8). -/
def markOf (b : Byte) : Bool := if b = 0 then false else if b = 1 then true else Config.otherMark b

/-! ## Loop frames sent (09 section 9.3) -/

/-- An order's code (07 section 7.4). -/
def orderCode : OrderKind → Byte
  | .grant => 0x01 | .wait => 0x02 | .deny => 0x03 | .open_ => 0x04 | .crank => 0x10 | .sync => 0x11 | .close => 0x12
  | .deadclose => 0x13 | .ramp => 0x14 | .unload => 0x15 | .openBreaker => 0x16 | .stop => 0x17 | .hold => 0x20
  | .release => 0x21

/-- An order's parameters. -/
def orderParams : Order → List Byte
  | .grant h kw _ => handleBytes h ++ le2 kw
  | .wait h t => handleBytes h ++ le2 (tenthsLeft t)
  | .deny h r => optHandleBytes h ++ [reasonCode r]
  | .ramp pct => [byteOf pct]
  | .hold cap length => le2 cap ++ [byteOf length]
  | .open_ _ | .crank | .sync | .close | .deadclose | .unload | .openBreaker | .stop | .release => []

/-- A loop frame with its CRC-16, low byte first (R195). -/
def loopFrame (u : Addr) (kind : Byte) (payload : List Byte) : List Byte :=
  let body := [byteOf (u.val + 1), kind, byteOf payload.length] ++ payload
  body ++ le2 (crc16 body).toNat

/-- The frame of a turn: an ORDER where there is a sent order, else a POLL (R165). -/
def turnFrame (u : Addr) : Option SlotOrder → List Byte
  | none => loopFrame u 0x71 []
  | some o => loopFrame u 0x72 ([byteOf o.number, orderCode o.order.kind] ++ orderParams o.order)

/-! ## REPLY frames read (R166, 09 section 9.3) -/

/-- The claim a feeder REPLY carries. -/
inductive Claim where
  | draw (c : DrawClaim)
  | release (h : Handle)
  deriving DecidableEq, Repr

/-- A REPLY that passes every test. -/
structure ReplyParts where
  report : List Byte
  answer : Option Bool
  claim  : Option Claim
  deriving DecidableEq, Repr

/-- The report length of a unit kind. -/
def reportLength : UnitRec → Nat
  | .feeder _ => 4
  | .genset _ => 3
  | .array _ => 2

/-- The claim at the end of a payload, read whole. -/
def readClaim (p : List Byte) : Option Claim :=
  match at1 p 0, p.length with
  | 1, 8 =>
    some (.draw { handle := if p.getD 1 0 = 0xFF ∧ p.getD 2 0 = 0 then none else some (atHandle p 1)
                  kw := at2 p 3, mayWait := markOf (p.getD 5 0), waitLimit := at2 p 6 })
  | 2, 3 => some (.release (atHandle p 1))
  | _, _ => none

/-- ACCEPTED or REFUSED; any other answer byte is open (log 8). -/
def acceptedOf (b : Byte) : Bool := if b = 0 then true else if b = 1 then false else Config.otherAnswer b

/-- The payload of a REPLY from a unit of this kind, in a turn that sent this order, or none where a test of R166 fails. -/
def readPayload (r : UnitRec) (sent : Option SlotOrder) (p : List Byte) : Option ReplyParts :=
  let marks := p.getD 1 0
  let answered := marks.getLsbD 0
  let claims := marks.getLsbD 1
  let report := (p.drop 2).take (reportLength r)
  let rest := p.drop (2 + reportLength r)
  let answer := rest.take 3
  let tail := if answered then rest.drop 3 else rest
  let claim := if claims then (readClaim tail).map some else if tail.isEmpty then some none else none
  let feeder := match r with
    | .feeder _ => true
    | _ => false
  if p.getD 0 0 = kindCode (some r) ∧ report.length = reportLength r ∧ answered = sent.isSome
      ∧ (answered = false ∨ (answer.length = 3 ∧ sent.map (byteOf ·.number) = some (answer.getD 0 0)))
      ∧ (claims = false ∨ feeder = true)
  then claim.map fun c =>
    { report := report, answer := if answered then some (acceptedOf (answer.getD 1 0)) else none, claim := c }
  else none

/-- The characters of a REPLY, or none where a test of R166 fails. -/
def readReply (u : Addr) (r : UnitRec) (sent : Option SlotOrder) (chars : List Byte) : Option ReplyParts :=
  let n := chars.length - 5
  let body := chars.take (n + 3)
  if 5 ≤ chars.length ∧ chars.drop (n + 3) = le2 (crc16 body).toNat ∧ at1 chars 2 = n
      ∧ at1 chars 0 = u.val + 1 ∧ at1 chars 1 = 0x73
  then readPayload r sent (body.drop 3) else none

/-- A feeder report (09 section 9.3). A breaker byte other than 00h and 01h is open (log 8). -/
def feederReport (p : List Byte) : FeederReport :=
  let b := p.getD 0 0
  { closed := if b = 0 then false else if b = 1 then true else Config.otherBreaker b
    isLocal := (p.getD 1 0).getLsbD 0
    draw := at2 p 2 }

/-- A genset report (09 section 9.3). -/
def gensetReport (p : List Byte) : GensetReport :=
  let m := p.getD 0 0
  { running := m.getLsbD 0, voltsOk := m.getLsbD 1, warm := m.getLsbD 2, ready := m.getLsbD 3, synced := m.getLsbD 4
    closed := m.getLsbD 5, tripped := m.getLsbD 6, output := at2 p 1 }

/-- An array report (09 section 9.3). -/
def arrayReport (p : List Byte) : Kw := at2 p 0

/-! ## Station requests read (R182, 09 section 9.6) -/

/-- A command whose payload has one length. -/
def ofLength (n : Nat) (p : List Byte) (i : Instr) : Option Instr := if p.length = n then some i else none

/-- A list of numbers after its count. -/
def counted (p : List Byte) (f : List Nat → Instr) : Option Instr :=
  if p.length = 1 + at1 p 0 then some (f ((p.drop 1).map (·.toNat))) else none

/-- The profile of a SET GENSET payload. -/
def profileAt (p : List Byte) : ProfileFields :=
  { rated := at2 p 1, minimum := at2 p 3, step := at2 p 5, merit := at1 p 7, primary := at1 p 8
    dark := if at1 p 9 = 255 then none else some (at1 p 9)
    maxAttempts := at1 p 10, minRun := at2 p 11, coolDown := at2 p 13 }

/-- The command a code and a payload give: `none` for a code that names no command, `some none` for a length that the
command's layout does not allow. -/
def readRequest (code : Byte) (p : List Byte) : Option (Option Instr) :=
  match code with
  | 0x00#8 => some (ofLength 0 p .null)
  | 0x01#8 => some (ofLength 2 p (.lookUp (at1 p 0) (at1 p 1)))
  | 0x02#8 => some (ofLength 0 p .readAccount)
  | 0x03#8 => some (ofLength 0 p .readNotices)
  | 0x04#8 => some (ofLength 5 p (.setSetting (at1 p 0) (at4 p 1)))
  | 0x05#8 => some (ofLength 1 p (.getSetting (at1 p 0)))
  | 0x0F#8 => some (ofLength 0 p .softReset)
  | 0x21#8 => some (if p.length = 6
      then some (.reserve (at2 p 0) (at1 p 2) (markOf (p.getD 3 0)) (some (at2 p 4)))
      else ofLength 4 p (.reserve (at2 p 0) (at1 p 2) (markOf (p.getD 3 0)) none))
  | 0x22#8 => some (ofLength 4 p (.adjust (atHandle p 0) (at2 p 2)))
  | 0x23#8 => some (ofLength 2 p (.retire (atHandle p 0)))
  | 0x24#8 => some (ofLength 5 p (.setFeeder (at1 p 0) (at1 p 1) (at2 p 2) (markOf (p.getD 4 0))))
  | 0x25#8 => some (ofLength 2 p (.shedNow (atHandle p 0)))
  | 0x26#8 => some (ofLength 1 p (.resetRotation (at1 p 0)))
  | 0x30#8 => some (ofLength 15 p (.setGenset (at1 p 0) (profileAt p)))
  | 0x31#8 => some (ofLength 6 p (.writeStep (at1 p 0) (at1 p 1) (at1 p 2) (at1 p 3) (at2 p 4)))
  | 0x32#8 => some (ofLength 1 p (.start (at1 p 0)))
  | 0x33#8 => some (ofLength 2 p (.stop (at1 p 0) (markOf (p.getD 1 0))))
  | 0x34#8 => some (ofLength 1 p (.abortStart (at1 p 0)))
  | 0x35#8 => some (ofLength 1 p (.clearFailed (at1 p 0)))
  | 0x36#8 => some (ofLength 1 p (.lockOut (at1 p 0)))
  | 0x37#8 => some (ofLength 1 p (.unlock (at1 p 0)))
  | 0x40#8 => some (ofLength 5 p (.setArray (at1 p 0) (at2 p 1) (at2 p 3)))
  | 0x41#8 => some (ofLength 6 p (.setShare (at1 p 0) (at1 p 1) (at1 p 2) (at2 p 3) (markOf (p.getD 5 0))))
  | 0x42#8 => some (ofLength 0 p .swapBanks)
  | 0x43#8 => some (ofLength 0 p .curtailOn)
  | 0x44#8 => some (ofLength 0 p .curtailOff)
  | 0x50#8 => some (ofLength 0 p .run)
  | 0x51#8 => some (ofLength 0 p .restart)
  | 0x52#8 => some (ofLength 0 p .finishRestore)
  | 0x53#8 => some (ofLength 6 p (.setRestoreEntry (at1 p 0) (at1 p 1) (at2 p 2) (at2 p 4)))
  | 0x54#8 => some (counted p .setLeadOrder)
  | 0x55#8 => some (ofLength 0 p .standDown)
  | 0x56#8 => some (ofLength 0 p .resume)
  | 0x60#8 => some (ofLength 3 p (.setUnit (at1 p 0) (at1 p 1) (at1 p 2)))
  | 0x61#8 => some (counted p .setPollList)
  | _ => none

/-- The code of a station command, which its reply echoes (R182, 09 section 9.6). -/
def requestCode : Instr → Byte
  | .null => 0x00 | .lookUp _ _ => 0x01 | .readAccount => 0x02 | .readNotices => 0x03 | .setSetting _ _ => 0x04
  | .getSetting _ => 0x05 | .softReset => 0x0F | .reserve _ _ _ _ => 0x21 | .adjust _ _ => 0x22 | .retire _ => 0x23
  | .setFeeder _ _ _ _ => 0x24 | .shedNow _ => 0x25 | .resetRotation _ => 0x26 | .setGenset _ _ => 0x30
  | .writeStep _ _ _ _ _ => 0x31 | .start _ => 0x32 | .stop _ _ => 0x33 | .abortStart _ => 0x34
  | .clearFailed _ => 0x35 | .lockOut _ => 0x36 | .unlock _ => 0x37 | .setArray _ _ _ => 0x40
  | .setShare _ _ _ _ _ => 0x41 | .swapBanks => 0x42 | .curtailOn => 0x43 | .curtailOff => 0x44 | .run => 0x50
  | .restart => 0x51 | .finishRestore => 0x52 | .setRestoreEntry _ _ _ _ => 0x53 | .setLeadOrder _ => 0x54
  | .standDown => 0x55 | .resume => 0x56 | .setUnit _ _ _ => 0x60 | .setPollList _ => 0x61
  | _ => 0xFF

/-- A mark as a request carries it: 00h off, 01h on. -/
def markByte (b : Bool) : Byte := if b then 1 else 0

/-- The payload with which a request carries a station command; none for what is no station command (09 section 9.6). -/
def requestPayload : Instr → Option (List Byte)
  | .null | .readAccount | .readNotices | .softReset | .swapBanks | .curtailOn | .curtailOff | .run | .restart
  | .finishRestore | .standDown | .resume => some []
  | .lookUp kind index => some [byteOf kind, byteOf index]
  | .setSetting number value => some (byteOf number :: le4 value)
  | .getSetting number => some [byteOf number]
  | .reserve kw cls mayWait expiry =>
      some (le2 kw ++ [byteOf cls, markByte mayWait] ++ (match expiry with | none => [] | some e => le2 e))
  | .adjust h kw => some (handleBytes h ++ le2 kw)
  | .retire h | .shedNow h => some (handleBytes h)
  | .setFeeder feeder cls pickup lockout => some ([byteOf feeder, byteOf cls] ++ le2 pickup ++ [markByte lockout])
  | .resetRotation n | .start n | .abortStart n | .clearFailed n | .lockOut n | .unlock n => some [byteOf n]
  | .setGenset genset p =>
      some ([byteOf genset] ++ le2 p.rated ++ le2 p.minimum ++ le2 p.step
        ++ [byteOf p.merit, byteOf p.primary, byteOf (p.dark.getD 255), byteOf p.maxAttempts]
        ++ le2 p.minRun ++ le2 p.coolDown)
  | .writeStep slot step kind arg limit => some ([byteOf slot, byteOf step, byteOf kind, byteOf arg] ++ le2 limit)
  | .stop genset force => some [byteOf genset, markByte force]
  | .setArray array nameplate fallback => some ([byteOf array] ++ le2 nameplate ++ le2 fallback)
  | .setShare bank array weight limit enabled =>
      some ([byteOf bank, byteOf array, byteOf weight] ++ le2 limit ++ [markByte enabled])
  | .setRestoreEntry position feeder pickup settle =>
      some ([byteOf position, byteOf feeder] ++ le2 pickup ++ le2 settle)
  | .setLeadOrder l | .setPollList l => some (byteOf l.length :: l.map byteOf)
  | .setUnit address kind record => some [byteOf address, byteOf kind, byteOf record]
  | _ => none

/-- The frame of a request: code, length, payload and CRC-8, filled up to 64 bytes (09 section 9.1, R194). -/
def requestFrame (code : Byte) (payload : List Byte) : List Byte :=
  let body := [code, byteOf payload.length] ++ payload
  let frame := body ++ [crc8 body]
  frame ++ List.replicate (64 - frame.length) 0xFF

end Sys2Proof.Machine
end

