-- ==== Sys2Proof/Machine/Loop.lean ====
section
/-! DEFINITION. The Field Loop Controller (07): order slots and the Urgent List, the choice of a turn, valid and missed turns,
contact, delivery, and the directory and poll list. -/

namespace Sys2Proof.Machine

/-- The loop goes to a state. -/
def State.toLoop (s : State) (l : Loop) : State := { s with flc := { s.flc with loop := l } }

/-- A new Urgent List. -/
def State.setUrgent (s : State) (l : List Addr) : State := { s with flc := { s.flc with urgent := l } }

/-- An address leaves the Urgent List (R169). -/
def State.unurge (s : State) (u : Addr) : State := s.setUrgent (s.flc.urgent.filter fun a => a != u)

/-- The inter-frame gap starts (R163). -/
def State.startGap (s : State) : State := s.toLoop (.gap (s.setting .interFrameGap))

/-- The FLC tells a block that an order of its own is gone (R160, R167, R168, R172). -/
def State.tellGone (s : State) (o : SlotOrder) (r : UnitRec) (why : GoneCause) : State :=
  s.push (.supersessionNotice o.owner r o.order why)

/-! ## Turns (R164, R165) -/

/-- A turn to an address begins: the slot's order is its sent order, and the frame is shifted out (R165). -/
def State.beginTurn (s : State) (u : Addr) (urgent : Bool) : State :=
  let sent := (s.entry u).slot
  s.toLoop (.sending { addr := u, urgent := urgent, sent := sent, discard := false, baud := s.setting .baudRate }
    (turnFrame u sent))

/-- The next poll turn: the first entry from the cursor on whose address is not VACANT (R164). -/
def State.pollTurn : Nat → State → State
  | 0, s => s.toLoop .idle
  | n + 1, s =>
    match s.flc.pollList[s.flc.cursor]? with
    | none => s.toLoop .idle
    | some u =>
      let next := if s.flc.cursor + 1 < s.flc.pollList.length then s.flc.cursor + 1 else 0
      let t := { s with flc := { s.flc with cursor := next } }
      if (t.entry u).bound.isSome then t.beginTurn u false else State.pollTurn n t

/-- The FLC chooses the next turn (R164). -/
def State.chooseTurn (s : State) : State :=
  match s.flc.urgent with
  | u :: _ => s.beginTurn u true
  | [] => s.pollTurn s.flc.pollList.length

/-- The choice that an IDLE loop makes at once when a turn may have become possible (R164). -/
def State.wakeLoop (s : State) : State := if s.flc.loop = .idle then s.chooseTurn else s

/-! ## Order slots (R167 to R169) -/

/-- Whether a slot holds an urgent order. -/
def UnitEntry.isUrgent (e : UnitEntry) : Bool := e.slot.any (·.urgent)

/-- The slot of an address is emptied, and the address leaves the Urgent List. -/
def State.emptySlot (s : State) (u : Addr) : State := (s.setEntry u { s.entry u with slot := none }).unurge u

/-- The order number after one more placement (R159). -/
def nextNumber (n : Nat) : Nat := (n + 1) % 256

/-- The FLC takes a placement (R167, R169). -/
def State.placed (s : State) (p : Placement) : State :=
  match s.addrOf p.target with
  | none => s.push (.supersessionNotice p.owner p.target p.order .dropped)
  | some u =>
    let e := s.entry u
    if e.contact = .lost then s.push (.supersessionNotice p.owner p.target p.order .dropped)
    else
      let n := nextNumber e.orderNo
      let t := s.setEntry u { e with
        orderNo := n
        slot := some { order := p.order, owner := p.owner, urgent := p.urgent, number := n, attempts := 0 } }
      let t := match e.slot with
        | some o => if o.owner = p.owner then t else t.tellGone o p.target .superseded
        | none => t
      if p.urgent then (if e.isUrgent then t else t.setUrgent (t.flc.urgent ++ [u])).wakeLoop else t.unurge u

/-- The FLC takes a withdrawal (R168). -/
def State.withdrawn (s : State) (w : Withdrawal) : State :=
  match s.addrOf w.target with
  | none => s
  | some u =>
    match (s.entry u).slot with
    | some o =>
      if o.order.kind = w.kind then
        let t := s.emptySlot u
        if o.owner = w.by_ then t else t.tellGone o w.target .superseded
      else s
    | none => s

/-! ## Contact tellings (R174) -/

/-- The tellings of a change into SILENT or LOST. -/
def contactTellings (r : UnitRec) (now : Contact) : List Instr :=
  match r with
  | .feeder f =>
    [.aeContactChange f now, .seContactChange f now] ++ (if now = .lost then [.icFeederLost f] else [])
  | .genset g => [.gsContactLost g now]
  | .array a => [.cuContactLost a now]

/-! ## The end of a turn -/

/-- At the end of an urgent turn, an address whose slot still holds an urgent order moves to the tail (R169). -/
def State.rejudge (s : State) (t : Turn) : State :=
  if t.urgent && (s.entry t.addr).isUrgent then
    s.setUrgent ((s.flc.urgent.filter fun a => a != t.addr) ++ [t.addr])
  else s

/-- The attempt count of the sent order rises where it is still in the slot (R170), which is told by the order number alone
(log 86). -/
def UnitEntry.attempted (e : UnitEntry) (sent : Option SlotOrder) : UnitEntry :=
  match e.slot, sent with
  | some o, some w => if o.number = w.number then { e with slot := some { o with attempts := min 255 (o.attempts + 1) } } else e
  | _, _ => e

/-- A missed turn (R172). The missed count of a unit already LOST rises too (log 76). -/
def State.missedTurn (s : State) (t : Turn) : State :=
  let e := (s.entry t.addr).attempted t.sent
  let e := { e with missed := min 7 (e.missed + 1) }
  match e.bound with
  | none => s
  | some r =>
    if e.contact = .lost then s.setEntry t.addr e
    else if s.setting .missedLimit ≤ e.missed then
      let u := (s.setEntry t.addr { e with contact := .lost }).emptySlot t.addr
      let u := match e.slot with
        | some o => u.tellGone o r .emptied
        | none => u
      (u.pushAll (contactTellings r .lost)).notice .unitLost
    else
      let u := s.setEntry t.addr { e with contact := .silent }
      if e.contact = .silent then u else u.pushAll (contactTellings r .silent)

/-- The end of a turn that is not valid; one whose REPLY is to be discarded counts as neither valid nor missed (R160). -/
def State.turnMissed (s : State) (t : Turn) : State :=
  ((if t.discard then s else s.missedTurn t).rejudge t).startGap

/-- The events by which a valid REPLY reaches its blocks (R175). -/
def deliveries (r : UnitRec) (was : Contact) (p : ReplyParts) (sent : Option SlotOrder) : List Instr :=
  let answer := match sent, p.answer with
    | some o, some a => some { sent := o, accepted := a }
    | _, _ => none
  match r with
  | .feeder f =>
    let toBlock (b : Block) : FeederDelivery :=
      { feeder := f, was := was, report := feederReport p.report, answer := answer.filter fun a => a.sent.owner == b }
    [match p.claim with
      | none => .aeReplyDelivery (toBlock .ae)
      | some (.draw c) => .drawRequest (toBlock .ae) c
      | some (.release h) => .release (toBlock .ae) h,
     .seReplyDelivery (toBlock .se)]
  | .genset g => [.gsReplyDelivery { genset := g, was := was, report := gensetReport p.report, answer := answer }]
  | .array a => [.cuReplyDelivery { array := a, was := was, output := arrayReport p.report, answer := answer }]

/-- A valid turn (R170, R171, R175). That the slot still holds the sent order is told by the order number alone (log 86). -/
def State.validTurn (s : State) (t : Turn) (r : UnitRec) (p : ReplyParts) : State :=
  let e := s.entry t.addr
  let u := s.setEntry t.addr { e with contact := .inContact, missed := 0 }
  let answered := match e.slot, t.sent with
    | some o, some w => o.number == w.number
    | _, _ => false
  let u := if answered then u.emptySlot t.addr else u
  (u.rejudge t).pushAll (deliveries r e.contact p t.sent)

/-- A complete REPLY is judged (R160, R166). -/
def State.replyTaken (s : State) (chars : List Byte) : State :=
  match s.flc.loop with
  | .receiving t =>
    if t.discard then s.turnMissed t
    else
      match (s.entry t.addr).bound with
      | none => s.turnMissed t
      | some r =>
        match readReply t.addr r t.sent chars with
        | some p => (s.validTurn t r p).startGap
        | none => s.turnMissed t
  | _ => s

/-- The last character of the frame has left: the reply window starts (R163). -/
def State.frameLeft (s : State) : State :=
  match s.flc.loop with
  | .sending t _ => s.toLoop (.awaiting t (s.setting .replyWindow))
  | _ => s

/-- A start of character in the window (R163). -/
def State.replyBegins (s : State) : State :=
  match s.flc.loop with
  | .awaiting t _ => s.toLoop (.receiving t)
  | _ => s

/-- A reception ends early (R163, R166). -/
def State.receptionEnds (s : State) : State :=
  match s.flc.loop with
  | .receiving t => s.turnMissed t
  | _ => s

/-- The reply window runs out (R163, R172). -/
def State.windowExpired (s : State) : State :=
  match s.flc.loop with
  | .awaiting t _ => s.turnMissed t
  | _ => s

/-- The inter-frame gap runs out (R164). -/
def State.gapExpired (s : State) : State :=
  match s.flc.loop with
  | .gap _ => s.chooseTurn
  | _ => s

/-! ## Directory and poll list (R160 to R162) -/

/-- A record's loop address is written or removed with its binding (R159). -/
def State.setAddr (s : State) (r : UnitRec) (u : Option Addr) : State :=
  match r with
  | .feeder f => s.setFeeder f { s.feeder f with addr := u }
  | .genset g => s.setGenset g { s.genset g with addr := u }
  | .array a => s.setArray a { s.array a with addr := u }

/-- The REPLY of a turn under way to an address is to be discarded (R160). -/
def Loop.discarding (u : Addr) : Loop → Loop
  | .sending t f => .sending { t with discard := t.discard || t.addr == u } f
  | .awaiting t w => .awaiting { t with discard := t.discard || t.addr == u } w
  | .receiving t => .receiving { t with discard := t.discard || t.addr == u }
  | l => l

/-- The old binding of an address is undone, and its owner told as of a loss of contact (R160). -/
def State.unbind (s : State) (u : Addr) : State :=
  let e := s.entry u
  match e.bound with
  | none => s
  | some r =>
    let t := s.setAddr r none
    let t := match e.slot with
      | some o => t.tellGone o r .emptied
      | none => t
    t.pushAll (contactTellings r .lost)

/-- SET UNIT that changes a binding, in one event (R160). An entry made VACANT shows contact UNKNOWN and missed count 0 too
(log 77). -/
def State.bind (s : State) (u : Addr) (new : Option UnitRec) : State :=
  let t := (s.unbind u).emptySlot u
  let t := t.setEntry u { (t.entry u) with bound := new, contact := .unknown, missed := 0 }
  let t := t.toLoop (t.flc.loop.discarding u)
  match new with
  | none => t
  | some r => (t.setAddr r (some u)).wakeLoop

/-- SET POLL LIST, once it is taken (R162). -/
def State.setPolls (s : State) (l : List Addr) : State :=
  ({ s with flc := { s.flc with pollList := l, cursor := 0 } }).wakeLoop

/-- Whether the directory and the poll list may be edited (R161). -/
def State.editable (s : State) : Bool := s.ic.state == .setup || (s.active && s.ic.complete)

end Sys2Proof.Machine
end

