-- ==== Sys2Proof/Machine/Clock.lean ====
section
/-! DEFINITION. Time: one millisecond's passing, and the events of timers that have run out, which an empty queue leaves the
step to take (log 2, log 3). -/

namespace Sys2Proof.Machine

/-- A timer one millisecond later. -/
def countDown (t : Timer) : Timer := t.map (· - 1)

def Permit.ticked (p : Permit) : Permit :=
  { p with waitDeadline := countDown p.waitDeadline, revokeDeadline := countDown p.revokeDeadline
           expiryLeft := countDown p.expiryLeft }

def Genset.ticked (g : Genset) : Genset :=
  { g with minRun := countDown g.minRun, coolDown := countDown g.coolDown, phaseLimit := countDown g.phaseLimit
           rest := countDown g.rest }

def Run.ticked (r : Run) : Run := { r with stepTimer := countDown r.stepTimer, readyWait := countDown r.readyWait }

def ArrayRecord.ticked (a : ArrayRecord) : ArrayRecord :=
  match a.state with
  | .held h => { a with state := .held { h with quantum := h.quantum - 1 } }
  | _ => a

def Loop.ticked : Loop → Loop
  | .awaiting t w => .awaiting t (w - 1)
  | .gap t => .gap (t - 1)
  | l => l

/-- What a moment's passing alone brings about: a min-run timer that runs out (R104), the head of the Wait Queue that has
waited the start demand delay (R34), a permit that has been SHED for the minimum off time (R68). -/
def momentEvents (before after : State) : List Instr :=
  ((indices 6).filter fun g => (before.genset g).minRun == some 1).map Instr.minRunExpiry
    ++ (match after.ae.waitQueue with
      | i :: _ => if after.clock - (after.permit i).queuedAt = secs (after.setting .startDemandDelay)
          then [.startDemandDelay] else []
      | [] => [])
    ++ ((indices 32).filter fun i => (after.permit i).state == .shed
      && after.clock - (after.permit i).shedAt == secs (after.setting .minimumOffTime)).map Instr.minimumOffTime

/-- One millisecond passes. -/
def State.tick (s : State) : State :=
  let t := { s with
    clock := s.clock + 1
    ae := { s.ae with permits := mapTable (fun _ p => p.ticked) s.ae.permits, stepGuard := countDown s.ae.stepGuard }
    gs := { s.gs with gensets := mapTable (fun _ g => g.ticked) s.gs.gensets, laneA := s.gs.laneA.map Run.ticked
                      laneB := s.gs.laneB.map Run.ticked, stopDelay := countDown s.gs.stopDelay }
    cu := { s.cu with arrays := mapTable (fun _ a => a.ticked) s.cu.arrays, sharePeriod := s.cu.sharePeriod - 1
                      releaseDelay := countDown s.cu.releaseDelay }
    ic := { s.ic with deadConfirm := countDown s.ic.deadConfirm, liveConfirm := countDown s.ic.liveConfirm
                      holdoff := countDown s.ic.holdoff, settle := countDown s.ic.settle }
    flc := { s.flc with loop := s.flc.loop.ticked } }
  t.pushAll (momentEvents s t)

/-- An event where its timer has run out. -/
def dueIf (t : Timer) (e : Instr) : List Instr := if t = some 0 then [e] else []

def Permit.due (p : Permit) (i : Slot) : List Instr :=
  dueIf p.waitDeadline (.waitDeadlineExpiry i) ++ dueIf p.expiryLeft (.reservationExpiry i)
    ++ dueIf p.revokeDeadline (.revokeDeadlineExpiry i)

def Genset.due (g : Genset) (n : GensetNo) : List Instr :=
  dueIf g.rest (.restTimerExpiry n) ++ dueIf g.phaseLimit (.phaseLimitExpiry n) ++ dueIf g.coolDown (.coolDownExpiry n)

def runDue (r : Option Run) (l : LaneId) : List Instr :=
  dueIf (r.bind (·.stepTimer)) (.stepLimitExpiry l) ++ dueIf (r.bind (·.readyWait)) (.readyWaitExpiry l)

def ArrayRecord.due (a : ArrayRecord) (n : ArrayNo) : List Instr :=
  match a.state with
  | .held h => if h.remaining = 0 then [.holdLapse n] else if h.quantum = 0 then [.holdQuantum n] else []
  | _ => []

def Loop.due : Loop → List Instr
  | .awaiting _ w => if w = 0 then [.replyWindowExpiry] else []
  | .gap t => if t = 0 then [.gapExpiry] else []
  | _ => []

/-- The events of all timers that have run out, in an order that is the model's (log 2). A settle timer that ran out in a
pause of the walk waits for its end (R152). -/
def State.due (s : State) : List Instr :=
  dueIf s.ae.stepGuard .stepGuardExpiry
    ++ (indices 32).flatMap (fun i => (s.permit i).due i)
    ++ runDue s.gs.laneA .a ++ runDue s.gs.laneB .b
    ++ (indices 6).flatMap (fun g => (s.genset g).due g)
    ++ dueIf s.gs.stopDelay .stopDelayExpiry
    ++ dueIf (some s.cu.sharePeriod) .sharePeriodExpiry ++ dueIf s.cu.releaseDelay .releaseDelayExpiry
    ++ (indices 8).flatMap (fun a => (s.array a).due a)
    ++ dueIf s.ic.deadConfirm .deadBusConfirmation ++ dueIf s.ic.liveConfirm .liveBusConfirmation
    ++ dueIf s.ic.holdoff .restartHoldoffExpiry
    ++ (if s.paused then [] else dueIf s.ic.settle .settleExpiry)
    ++ s.flc.loop.due

/-- The event that an empty queue leaves the step to take: the oldest telling, else a timer that has run out. -/
def State.nextEvent (s : State) : Option Instr := (s.events ++ s.due).head?

end Sys2Proof.Machine
end

