-- ==== Sys2Proof/Machine/Postings.lean ====
section
/-! DEFINITION. The RA's taking of a posting as an event of its own (R6 to R12): each kind's change with the record changes it
belongs to. The blocks take their postings inside their own events, through the same operations (log 6). -/

namespace Sys2Proof.Machine

/-- An admission of a permit in QUEUED or SHED (R7). -/
def State.postAdmission (s : State) (i : Slot) : State :=
  let p := s.permit i
  if p.state = .queued ∨ p.state = .shed then
    match s.claim fun t => t.enter i
        { p with state := if p.ofFeeder then .staging else .granted, released := 0 } with
    | some t => s.settleAdmission (t.confirmGrant i)
    | none => s
  else s

/-- A rise of a STAGING or GRANTED permit's requested kW (R7, R29). -/
def State.postIncrease (s : State) (i : Slot) (kw : Kw) : State :=
  let p := s.permit i
  if (p.state = .staging ∨ p.state = .granted) ∧ p.requested < kw ∧ kw ≤ 16000 then
    match s.claim fun t => t.enter i { p with requested := kw, state := if p.ofFeeder then .staging else p.state } with
    | some t => s.settleAdmission ((if t.flightTo i then t.endFlight else t).confirmGrant i)
    | none => s
  else s

/-- A cut of a STAGING or GRANTED permit's requested kW (R10, R29). -/
def State.postCut (s : State) (i : Slot) (kw : Kw) : State :=
  let p := s.permit i
  if (p.state = .staging ∨ p.state = .granted) ∧ 1 ≤ kw ∧ kw < p.requested then
    match s.adjustPermit i kw with
    | .ok t => s.settleAdmission t
    | .error _ => s
  else s

/-- A feeder draw report (R11). -/
def State.postDraw (s : State) (f : FeederNo) (kw : Kw) : State :=
  match s.permitOf f with
  | some i => s.post fun t => t.enter i { t.permit i with lastDraw := reading kw }
  | none => s

/-- A genset adopted ONLINE (R10). -/
def State.postOnline (s : State) (g : GensetNo) : State :=
  let r := s.genset g
  if r.profile.isSome ∧ (r.state = .off ∨ r.state = .unknown) then
    State.settleGensets s false false ((s.unqueue g).commit g)
  else s

/-- An ONLINE genset that leaves ONLINE by a trip, in a lane or not (R10, R78, R98). -/
def State.postOffline (s : State) (g : GensetNo) : State :=
  if (s.genset g).state = .online then
    State.settleGensets s false false
      (match s.laneOf g with
        | some lane => State.finish (s.failing lane .trip)
        | none => s.onlineTrip g)
  else s

/-- The RA takes one posting (R6). -/
def State.takePosting (s : State) : Posting → State
  | .admission i => s.postAdmission i
  | .chargeIncrease i kw => s.postIncrease i kw
  | .exposureRaise k needs => s.raiseExposure k needs
  | .drawReport f kw => s.postDraw f kw
  | .permitFreed i => if (s.permit i).state = .free then s else s.settleAdmission (s.free i)
  | .permitCut i kw => s.postCut i kw
  | .gensetOnline g => s.postOnline g
  | .gensetOffline g => s.postOffline g
  | .arrayLapsed a => s.holdLapsed a
  | .setting st value =>
    match st with
    | .baseReserve | .cloudFactor | .floorMargin | .startLevel =>
      if st.inRange value then s.post fun t => t.putSetting st value else s
    | _ => s
  | .need source kw => s.setNeed source kw

end Sys2Proof.Machine
end

