-- ==== Sys2Proof/Machine/ExecAdmission.lean ====
section
/-! DEFINITION. The meanings of the Admission Engine's and the Reserve Account's events (01, 02). -/

namespace Sys2Proof.Machine

/-- POSTING (R6). -/
def execPosting (p : Posting) (s : State) : Host.Outcome State Fault Refusal :=
  s.taking (.posting p) (fun t => t.takePosting p)

/-- RA_ISLAND_STATE (R16). -/
def execRaIslandState (left entered : IslandState) (s : State) : Host.Outcome State Fault Refusal :=
  s.taking (.raIslandState left entered) (fun t => t.raIsland left entered)

/-- AE_BALANCE_UPDATE (R40). -/
def execAeBalanceUpdate (s : State) : Host.Outcome State Fault Refusal :=
  s.taking .aeBalanceUpdate State.serve

/-- STEP_GUARD_EXPIRY (R37, R40). -/
def execStepGuardExpiry (s : State) : Host.Outcome State Fault Refusal :=
  s.taking .stepGuardExpiry State.guardExpired

/-- WAIT_DEADLINE_EXPIRY (R33). -/
def execWaitDeadlineExpiry (slot : Slot) (s : State) : Host.Outcome State Fault Refusal :=
  s.taking (.waitDeadlineExpiry slot) (fun t => t.waitExpired slot)

/-- RESERVATION_EXPIRY (R28). -/
def execReservationExpiry (slot : Slot) (s : State) : Host.Outcome State Fault Refusal :=
  s.taking (.reservationExpiry slot) (fun t => t.reservationExpired slot)

/-- START_DEMAND_DELAY (R34). -/
def execStartDemandDelay (s : State) : Host.Outcome State Fault Refusal :=
  s.taking .startDemandDelay State.judgeNeed

/-- AE_REPLY_DELIVERY: a REPLY with no claim (R22). -/
def execAeReplyDelivery (d : FeederDelivery) (s : State) : Host.Outcome State Fault Refusal :=
  s.taking (.aeReplyDelivery d) (fun t => t.aeDelivery d id)

/-- DRAW_REQUEST: a REPLY with this claim (R22 to R25). -/
def execDrawRequest (d : FeederDelivery) (claim : DrawClaim) (s : State) : Host.Outcome State Fault Refusal :=
  s.taking (.drawRequest d claim) (fun t => t.aeDelivery d fun u => u.takeDraw d claim)

/-- RELEASE: a REPLY with this claim (R26). -/
def execRelease (d : FeederDelivery) (h : Handle) (s : State) : Host.Outcome State Fault Refusal :=
  s.taking (.release d h) (fun t => t.aeDelivery d fun u => State.takeRelease t u d h)

/-- AE_CONTACT_CHANGE (R45, R65). -/
def execAeContactChange (f : FeederNo) (now : Contact) (s : State) : Host.Outcome State Fault Refusal :=
  s.taking (.aeContactChange f now) (fun t => t.aeContact f now)

/-- SUPERSESSION_NOTICE (R38, R113, R167, R168); the SE and the GS keep nothing that an order of theirs leaves. -/
def execSupersessionNotice (owner : Block) (target : UnitRec) (order : Order) (cause : GoneCause) (s : State) : Host.Outcome State Fault Refusal :=
  s.taking (.supersessionNotice owner target order cause) (fun t =>
    match owner, target with
    | .ae, _ => t.aeGone order
    | .cu, .array a => t.cuGone a
    | _, _ => t)

/-- AE_DARK_ENTRY (R48). -/
def execAeDarkEntry (s : State) : Host.Outcome State Fault Refusal :=
  s.taking .aeDarkEntry State.aeDark

/-- WALK_PERMIT_REQUEST (R153). -/
def execWalkPermitRequest (f : FeederNo) (kw : Kw) (s : State) : Host.Outcome State Fault Refusal :=
  s.taking (.walkPermitRequest f kw) (fun t => t.walkRequest f kw)

/-- SHED_LIST_CANDIDATE_NAMED (R40, R69). -/
def execShedListCandidateNamed (h : Handle) (s : State) : Host.Outcome State Fault Refusal :=
  s.taking (.shedListCandidateNamed h) (fun t => (t.named? h).serve)

end Sys2Proof.Machine
end

