-- ==== Sys2Proof/Machine/ExecCurtail.lean ====
section
/-! DEFINITION. The meanings of the Curtailment Unit's events (05). -/

namespace Sys2Proof.Machine

/-- CU_BALANCE_UPDATE (R122, R124, R125). -/
def execCuBalanceUpdate (s : State) : Host.Outcome State Fault Refusal :=
  s.taking .cuBalanceUpdate State.ceilingChanged

/-- CU_REPLY_DELIVERY (R116, R130, R131). -/
def execCuReplyDelivery (d : ArrayDelivery) (s : State) : Host.Outcome State Fault Refusal :=
  s.taking (.cuReplyDelivery d) (fun t => t.cuReply d)

/-- CU_CONTACT_LOST (R116). -/
def execCuContactLost (a : ArrayNo) (now : Contact) (s : State) : Host.Outcome State Fault Refusal :=
  s.taking (.cuContactLost a now) (fun t => t.cuLost a now)

/-- SHARE_PERIOD_EXPIRY (R128). -/
def execSharePeriodExpiry (s : State) : Host.Outcome State Fault Refusal :=
  s.taking .sharePeriodExpiry State.shareExpired

/-- RAISE_CLAIM_ANSWER (R129). -/
def execRaiseClaimAnswer (raised : List ArrayNo) (s : State) : Host.Outcome State Fault Refusal :=
  s.taking (.raiseClaimAnswer raised) (fun t => t.raiseAnswered raised)

/-- RELEASE_DELAY_EXPIRY (R125). -/
def execReleaseDelayExpiry (s : State) : Host.Outcome State Fault Refusal :=
  s.taking .releaseDelayExpiry State.releaseDelayExpired

/-- RELEASE_CLAIM_ANSWER (R126). -/
def execReleaseClaimAnswer (whole : Bool) (raised : List ArrayNo) (s : State) : Host.Outcome State Fault Refusal :=
  s.taking (.releaseClaimAnswer whole raised) (fun t => t.releaseAnswered whole raised)

/-- HOLD_QUANTUM (R132, R133). -/
def execHoldQuantum (a : ArrayNo) (s : State) : Host.Outcome State Fault Refusal :=
  s.taking (.holdQuantum a) (fun t => t.quantumPassed a)

/-- HOLD_LAPSE (R133). -/
def execHoldLapse (a : ArrayNo) (s : State) : Host.Outcome State Fault Refusal :=
  s.taking (.holdLapse a) (fun t => t.holdLapsed a)

/-- CU_RUN_ENTRY (R119). -/
def execCuRunEntry (left : IslandState) (s : State) : Host.Outcome State Fault Refusal :=
  s.taking (.cuRunEntry left) (fun t => t.cuRun left)

/-- CU_DARK_ENTRY (R134). -/
def execCuDarkEntry (s : State) : Host.Outcome State Fault Refusal :=
  s.taking .cuDarkEntry State.cuDark

/-- CU_RESTORE_ENTRY (R135). -/
def execCuRestoreEntry (s : State) : Host.Outcome State Fault Refusal :=
  s.taking .cuRestoreEntry State.cuRestore

end Sys2Proof.Machine
end

