-- ==== Sys2Proof/Machine/ExecGenset.lean ====
section
/-! DEFINITION. The meanings of the Genset Sequencer's events (04). -/

namespace Sys2Proof.Machine

/-- LEAD_START_REQUEST (R112). -/
def execLeadStartRequest (g : GensetNo) (s : State) : Host.Outcome State Fault Refusal :=
  s.taking (.leadStartRequest g) (fun t => t.leadRequest g)

/-- ADOPTION_REQUEST (R77). -/
def execAdoptionRequest (why : AdoptionWhy) (s : State) : Host.Outcome State Fault Refusal :=
  s.taking (.adoptionRequest why) (fun t => t.adoption why)

/-- IC_LANE_ABORT (R103). -/
def execIcLaneAbort (g : GensetNo) (s : State) : Host.Outcome State Fault Refusal :=
  s.taking (.icLaneAbort g) (fun t => t.leadAbort g)

/-- GS_BALANCE_UPDATE (R86, R104). -/
def execGsBalanceUpdate (s : State) : Host.Outcome State Fault Refusal :=
  s.taking .gsBalanceUpdate (fun t => State.settleGensets t true true t)

/-- GS_REPLY_DELIVERY (R75). -/
def execGsReplyDelivery (d : GensetDelivery) (s : State) : Host.Outcome State Fault Refusal :=
  s.taking (.gsReplyDelivery d) (fun t => t.gsReply d)

/-- GS_CONTACT_LOST (R79, R99, R107). -/
def execGsContactLost (g : GensetNo) (now : Contact) (s : State) : Host.Outcome State Fault Refusal :=
  s.taking (.gsContactLost g now) (fun t => t.gsLost g now)

/-- STEP_LIMIT_EXPIRY (R90, R94, R102). -/
def execStepLimitExpiry (lane : LaneId) (s : State) : Host.Outcome State Fault Refusal :=
  s.taking (.stepLimitExpiry lane) (fun t => t.laneEvent fun u => u.stepExpired lane)

/-- READY_WAIT_EXPIRY (R89). -/
def execReadyWaitExpiry (lane : LaneId) (s : State) : Host.Outcome State Fault Refusal :=
  s.taking (.readyWaitExpiry lane) (fun t => t.laneEvent fun u => u.readyExpired lane)

/-- MIN_RUN_EXPIRY (R104). -/
def execMinRunExpiry (g : GensetNo) (s : State) : Host.Outcome State Fault Refusal :=
  s.taking (.minRunExpiry g) (fun t => t.minRunExpired g)

/-- REST_TIMER_EXPIRY (R110). -/
def execRestTimerExpiry (g : GensetNo) (s : State) : Host.Outcome State Fault Refusal :=
  s.taking (.restTimerExpiry g) (fun t => t.restExpired g)

/-- STOP_DELAY_EXPIRY (R105). -/
def execStopDelayExpiry (s : State) : Host.Outcome State Fault Refusal :=
  s.taking .stopDelayExpiry State.stopDelayExpired

/-- PHASE_LIMIT_EXPIRY (R106). -/
def execPhaseLimitExpiry (g : GensetNo) (s : State) : Host.Outcome State Fault Refusal :=
  s.taking (.phaseLimitExpiry g) (fun t => t.phaseLimitExpired g)

/-- COOL_DOWN_EXPIRY (R106). -/
def execCoolDownExpiry (g : GensetNo) (s : State) : Host.Outcome State Fault Refusal :=
  s.taking (.coolDownExpiry g) (fun t => t.coolDownExpired g)

/-- GS_ISLAND_STATE (R111). -/
def execGsIslandState (entered : IslandState) (s : State) : Host.Outcome State Fault Refusal :=
  s.taking (.gsIslandState entered) (fun t => t.gsIsland entered)

end Sys2Proof.Machine
end

