-- ==== Sys2Proof/Machine/ExecIsland.lean ====
section
/-! DEFINITION. The meanings of the Island Controller's events (06; R196). -/

namespace Sys2Proof.Machine

/-- DEAD_BUS_CONFIRMATION (R140). -/
def execDeadBusConfirmation (s : State) : Host.Outcome State Fault Refusal :=
  s.taking .deadBusConfirmation State.deadConfirmed

/-- LIVE_BUS_CONFIRMATION (R140). -/
def execLiveBusConfirmation (s : State) : Host.Outcome State Fault Refusal :=
  s.taking .liveBusConfirmation State.liveConfirmed

/-- RESTART_HOLDOFF_EXPIRY (R144). -/
def execRestartHoldoffExpiry (s : State) : Host.Outcome State Fault Refusal :=
  s.taking .restartHoldoffExpiry State.holdoffExpired

/-- LEAD_OUTCOME (R148). -/
def execLeadOutcome (o : LeadOutcome) (s : State) : Host.Outcome State Fault Refusal :=
  s.taking (.leadOutcome o) (fun t => t.leadEnded o)

/-- ADOPTION_ANSWER (R146, R149). -/
def execAdoptionAnswer (why : AdoptionWhy) (adopted : List GensetNo) (s : State) : Host.Outcome State Fault Refusal :=
  s.taking (.adoptionAnswer why adopted) (fun t => t.adoptionAnswered why adopted)

/-- SETTLE_EXPIRY (R155). -/
def execSettleExpiry (s : State) : Host.Outcome State Fault Refusal :=
  s.taking .settleExpiry State.settleExpired

/-- WALK_PERMIT_ANSWER (R153, R154). -/
def execWalkPermitAnswer (a : WalkAnswer) (s : State) : Host.Outcome State Fault Refusal :=
  s.taking (.walkPermitAnswer a) (fun t => t.walkAnswered a.feeder a.kw a.permit)

/-- WALK_PERMIT_OUTCOME (R155). -/
def execWalkPermitOutcome (h : Handle) (granted : Bool) (s : State) : Host.Outcome State Fault Refusal :=
  s.taking (.walkPermitOutcome h granted) (fun t => t.walkOutcome h granted)

/-- IC_HEADROOM_RISE (R154). -/
def execIcHeadroomRise (s : State) : Host.Outcome State Fault Refusal :=
  s.taking .icHeadroomRise State.headroomRose

/-- SE_IDLE_TELLING: the return to IDLE ends a pause of the walk (R152). -/
def execSeIdleTelling (idle : Bool) (s : State) : Host.Outcome State Fault Refusal :=
  s.taking (.seIdleTelling idle) (fun t => if idle then t.resumeWalk else t)

/-- QUIET_MARK_CHANGE (R158). -/
def execQuietMarkChange (mark : QuietMark) (quiet : Bool) (s : State) : Host.Outcome State Fault Refusal :=
  s.taking (.quietMarkChange mark quiet) (fun t => t.quietChanged mark quiet)

/-- ADOPTION_SET_REMOVAL (R142). -/
def execAdoptionSetRemoval (f : FeederNo) (s : State) : Host.Outcome State Fault Refusal :=
  s.taking (.adoptionSetRemoval f) (fun t => t.unadopt f)

/-- IC_FEEDER_LOST (R142). -/
def execIcFeederLost (f : FeederNo) (s : State) : Host.Outcome State Fault Refusal :=
  s.taking (.icFeederLost f) (fun t => t.unadopt f)

end Sys2Proof.Machine
end

