-- ==== Sys2Proof/Machine/ExecLoop.lean ====
section
/-! DEFINITION. The meanings of the Field Loop Controller's events (07). -/

namespace Sys2Proof.Machine

/-- FLC_ISLAND_STATE: kept for the permissions, which read the state at the IC (R161, log 5); turns go on as they were. -/
def execFlcIslandState (entered : IslandState) (s : State) : Host.Outcome State Fault Refusal :=
  s.taking (.flcIslandState entered) id

/-- ORDER_PLACEMENT (R167, R169). -/
def execOrderPlacement (p : Placement) (s : State) : Host.Outcome State Fault Refusal :=
  s.taking (.orderPlacement p) (fun t => t.placed p)

/-- ORDER_WITHDRAWAL (R168). -/
def execOrderWithdrawal (w : Withdrawal) (s : State) : Host.Outcome State Fault Refusal :=
  s.taking (.orderWithdrawal w) (fun t => t.withdrawn w)

/-- GAP_EXPIRY (R164). -/
def execGapExpiry (s : State) : Host.Outcome State Fault Refusal :=
  s.taking .gapExpiry State.gapExpired

/-- FRAME_SENT (R163). -/
def execFrameSent (s : State) : Host.Outcome State Fault Refusal :=
  s.taking .frameSent State.frameLeft

/-- REPLY_START (R163). -/
def execReplyStart (s : State) : Host.Outcome State Fault Refusal :=
  s.taking .replyStart State.replyBegins

/-- REPLY_RECEIVED (R166). -/
def execReplyReceived (chars : List Byte) (s : State) : Host.Outcome State Fault Refusal :=
  s.taking (.replyReceived chars) (fun t => t.replyTaken chars)

/-- RECEPTION_TIMEOUT (R163). -/
def execReceptionTimeout (s : State) : Host.Outcome State Fault Refusal :=
  s.taking .receptionTimeout State.receptionEnds

/-- REPLY_WINDOW_EXPIRY (R163, R172). -/
def execReplyWindowExpiry (s : State) : Host.Outcome State Fault Refusal :=
  s.taking .replyWindowExpiry State.windowExpired

end Sys2Proof.Machine
end

