-- ==== Sys2Proof/Machine/Flags.lean ====
section
/-! DEFINITION. The flags of the part: the Notice Set and its two bytes (R184, R185), and the output pins ATTN, READY and LDE
and the drive of MISO, worked out from the state (00_scope.md Signals; R163, R179, R181, R184, R193). -/

namespace Sys2Proof.Machine

/-- A notice's bit (09 section 9.6). -/
def noticeBit : Notice → Fin 15
  | .shortfall => 0 | .ladderExhausted => 1 | .revokeFailed => 2 | .unitLost => 3 | .unpermittedClose => 4
  | .overdraw => 5 | .startFailed => 6 | .gensetTripped => 7 | .curtailEngaged => 8 | .curtailReleased => 9
  | .islandState => 10 | .restartFailed => 11 | .foreignLive => 12 | .standDownComplete => 13 | .queueRefusal => 14

/-- The SP sets a flag (R184). -/
def State.raiseFlag (s : State) (n : Notice) : State :=
  { s with sp := { s.sp with notices := s.sp.notices.set (noticeBit n) true } }

/-- Whether a flag is set. -/
def State.flagged (s : State) (n : Notice) : Bool := s.sp.notices[noticeBit n]

/-- The two bytes of READ NOTICES; bit 15 is 0. -/
def State.noticeBytes (s : State) : List Byte := le2 (flagsOf s.sp.notices.toList)

/-- The flags that were read are cleared (R185). -/
def State.clearFlags (s : State) : State := { s with sp := { s.sp with notices := Vector.replicate 15 false } }

/-- ATTN is driven low while the Notice Set holds a flag (R184). -/
def State.attnLow (s : State) : Bool := s.sp.notices.toList.any id

/-- READY is high while no request is in execution and the part is not held in reset (R181). -/
def State.ready (s : State) : Bool := !s.inReset && s.sp.executing.isNone

/-- MISO is driven while CS is low and the part is not held in reset, and is at high impedance otherwise (R179, R193). -/
def State.misoDriven (s : State) : Bool := s.pins.csLow && !s.inReset

/-- The byte that MISO shifts out as the `k`th of the transaction under way: the reply frame's, and FFh beyond its end; none
where MISO is at high impedance (R179, R193). -/
def State.misoByte (s : State) (k : Nat) : Option Byte :=
  if s.misoDriven then s.sp.transaction.map fun x => x.frame.getD k 0xFF else none

/-- LDE is high in SENDING (R163). -/
def State.lde (s : State) : Bool :=
  match s.flc.loop with
  | .sending _ _ => true
  | _ => false

end Sys2Proof.Machine
end

