-- ==== Sys2Proof/Machine/Records.lean ====
section
/-! DEFINITION. The records that LOOK UP and READ ACCOUNT return (R17, R186 to R188; 09 section 9.5). Bytes of an absent field
for which 09 names no absent value are free (log 11). -/

namespace Sys2Proof.Machine

/-- A field's bytes: `none` where an absent field has no absent value named. -/
abbrev Field := List (Option Byte)

/-- A field that is present. -/
def have_ (l : List Byte) : Field := l.map some

/-- A field of `n` bytes that is absent. -/
def lack (n : Nat) : Field := List.replicate n none

/-- A field of `n` bytes, absent where there is no value. -/
def maybe {α : Type} (n : Nat) (f : α → List Byte) : Option α → Field
  | none => lack n
  | some a => have_ (f a)

/-- A field with an absent value of its own. -/
def orElse {α : Type} (absent : List Byte) (f : α → List Byte) : Option α → Field
  | none => have_ absent
  | some a => have_ (f a)

def one (n : Nat) : List Byte := [byteOf n]
def flag (b : Bool) : List Byte := [if b then 1 else 0]

/-- The record with its two mark bytes: the defined mark and the presence marks. -/
def marked (defined : Bool) (presence : List Bool) (fields : List Field) : Field :=
  have_ (le2 (flagsOf (defined :: presence))) ++ fields.flatten

/-- Absent bytes filled in with what the part sends there (log 11). -/
def filled (kind : Nat) : Nat → Field → List Byte
  | _, [] => []
  | k, b :: l => b.getD (Config.absentByte kind k) :: filled kind (k + 1) l

/-! ## One record of each kind -/

/-- PERMIT (R19, R186). -/
def State.permitRecord (s : State) (i : Slot) : Field :=
  let p := s.permit i
  let used := p.state != .free
  let ofFeeder := used && p.ofFeeder
  let queued := p.state == .queued
  let revoking := p.state == .revoking
  let shed := p.state == .shed
  let charged := p.state.charged && p.ofFeeder
  marked (if used then true else Config.freeSlotDefined)
    [used, used, used, ofFeeder, ofFeeder, used, queued, queued, revoking, revoking, shed, used && p.expiryGiven.isSome,
     p.expiryLeft.isSome, charged]
    [have_ (one p.gen), have_ [p.state.code], maybe 1 (fun h => [holderCode h]) p.holder,
     if used then have_ (one p.cls) else lack 1, if used then have_ (le2 p.requested) else lack 2,
     if ofFeeder then have_ (le2 p.released) else lack 2, if ofFeeder then have_ (le2 p.lastDraw) else lack 2,
     have_ (le2 p.charge), if used then have_ (le4 p.arrival) else lack 4, have_ (timerBytes p.waitDeadline),
     have_ (if queued then le4 ((s.clock - p.queuedAt) / 100) else timerBytes none), have_ [revokeCode p.revokeReason],
     have_ (timerBytes p.revokeDeadline), have_ (if shed then le4 ((s.clock - p.shedAt) / 100) else timerBytes none),
     if used then maybe 2 le2 p.expiryGiven else lack 2, have_ (timerBytes p.expiryLeft),
     if charged then have_ (flag p.overdraw) else lack 1]

/-- A loop address: 00h absent. -/
def addrBytes : Option Addr → List Byte
  | none => [0]
  | some u => one (u.val + 1)

/-- FEEDER (R50). -/
def State.feederRecord (s : State) (f : FeederNo) : Field :=
  let r := s.feeder f
  marked true [r.addr.isSome, r.permit.isSome, r.unconfirmed.isSome]
    [have_ (addrBytes r.addr), have_ (one r.cls), have_ (le2 r.pickup), have_ (one (flagsOf [r.lockout, r.isLocal])),
     have_ (le2 r.shedSeconds), have_ [r.breaker.code], have_ (optHandleBytes r.permit), have_ [revokeCode r.unconfirmed]]

/-- GENSET (R73, R106). -/
def State.gensetRecord (s : State) (g : GensetNo) : Field :=
  let r := s.genset g
  let lane := s.laneOf g
  marked r.profile.isSome
    [r.addr.isSome, (r.profile.bind (·.dark)).isSome, lane.isSome, r.phase.isSome, r.minRun.isSome, r.coolDown.isSome,
     r.phaseLimit.isSome]
    [have_ (addrBytes r.addr), maybe 2 le2 (r.profile.map (·.rated)), maybe 2 le2 (r.profile.map (·.minimum)),
     maybe 2 le2 (r.profile.map (·.step)), maybe 1 one (r.profile.map (·.merit)),
     maybe 1 one (r.profile.map (·.primary.val)), orElse [0xFF] (fun d => one (Fin.val d)) (r.profile.bind (·.dark)),
     maybe 1 one (r.profile.map (·.maxAttempts)), maybe 2 le2 (r.profile.map (·.minRun)),
     maybe 2 le2 (r.profile.map (·.coolDown)), have_ [r.state.code], have_ (one r.pointer.val), have_ (one r.attempts),
     have_ [laneCode lane], have_ [phaseCode r.phase], have_ (timerBytes r.minRun), have_ (timerBytes r.coolDown),
     have_ (timerBytes r.rest), have_ (timerBytes r.phaseLimit), have_ [reportMarks r.report],
     have_ (le2 r.report.output)]

/-- ARRAY (R113). -/
def State.arrayRecord (s : State) (a : ArrayNo) : Field :=
  let r := s.array a
  let hold : Option Hold := match r.state with
    | .held h => some h
    | _ => none
  marked r.definition.isSome
    [r.addr.isSome, r.target.isSome, hold.isSome, hold.isSome, hold.isSome, r.ordered.isSome, r.claimed.isSome]
    [have_ (addrBytes r.addr), maybe 2 le2 (r.definition.map (·.nameplate)), maybe 2 le2 (r.definition.map (·.fallback)),
     have_ [r.state.code], maybe 2 capBytes r.target, maybe 2 le2 (hold.map (·.cap)), maybe 1 one (hold.map (·.remaining)),
     maybe 1 one (hold.map (·.length)), maybe 2 capBytes r.ordered, maybe 2 le2 r.claimed,
     have_ (one (flagsOf [r.refusal, s.cu.swapPending])), have_ (le4 r.exposure), have_ (le2 r.lastOutput),
     have_ [if s.cu.current = .a then 0 else 1]]

/-- LANE (R88). -/
def State.laneRecord (s : State) (l : LaneId) : Field :=
  let run := s.run l
  let f := run.bind (·.inFlight)
  let step := f.isSome
  marked true
    [run.isSome, run.isSome, step, step, step, step, (run.bind (·.stepTimer)).isSome, (run.bind (·.readyWait)).isSome,
     run.isSome]
    [have_ [(run.map (·.state.code)).getD 0], orElse [0xFF] (fun r => one r.genset.val) run,
     orElse [0xFF] (fun r => [originCode r.origin]) run, maybe 1 (fun x => one x.pos.val) f,
     maybe 1 (fun x => [x.step.kind.code]) f, maybe 1 (fun x => one x.step.arg) f, maybe 2 (fun x => le2 x.step.limit) f,
     have_ (timerBytes (run.bind (·.stepTimer))), have_ (timerBytes (run.bind (·.readyWait))),
     maybe 1 (fun r => one (flagsOf [r.token, r.closeOrdered])) run]

/-- STEP (R82). -/
def State.stepRecord (s : State) (k : Fin 128) : Field := marked true [] [have_ (stepBytes s.gs.store[k])]

/-- SHARE (R117). -/
def shareRecord (r : Share) : Field := marked true [] [have_ (one r.weight), have_ (le2 r.limit), have_ (flag r.enabled)]

/-- UNIT (R159). -/
def State.unitRecord (s : State) (u : Addr) : Field :=
  let e := s.entry u
  marked e.bound.isSome [e.bound.isSome]
    [have_ [kindCode e.bound], orElse [0xFF] (fun r => one (recordNo r)) e.bound, have_ [contactCode e.contact],
     have_ (one e.missed), have_ (one e.orderNo), orElse [0x00] (fun o => [orderCode o.order.kind]) e.slot,
     maybe 1 (fun o => [blockCode o.owner]) e.slot, maybe 1 (fun o => flag o.urgent) e.slot,
     maybe 1 (fun o => one o.number) e.slot, maybe 1 (fun o => one o.attempts) e.slot,
     maybe 4 (fun o => ((orderParams o.order) ++ [0, 0, 0, 0]).take 4) e.slot]

def phaseNumber : WalkPhase → Fin 4
  | .next => 0 | .waitFit => 1 | .waitGrant => 2 | .settle => 3

/-- Three bytes of a free code. -/
def bytes3 (v : BitVec 24) : List Byte := (le4 v.toNat).take 3

/-- ISLAND: the fields of R137 in its table's order (log 10), each number, code and mark in one byte (log 92). -/
def State.islandRecord (s : State) : Field :=
  let i := s.ic
  marked true [i.walkPhase.isSome, i.walkPermit.isSome, i.settle.isSome, i.decision.isSome]
    [have_ [islandCode i.state], have_ [Config.heldBusCode i.heldLive], have_ (timerBytes i.deadConfirm),
     have_ (timerBytes i.liveConfirm), have_ (timerBytes i.holdoff),
     have_ (bytes3 (Config.skipMarksCode (i.restoreList.map (·.skip)))), have_ (one i.walkPointer),
     maybe 1 (fun p => [Config.walkPhaseCode (phaseNumber p)]) i.walkPhase, have_ (optHandleBytes i.walkPermit),
     have_ (timerBytes i.settle), have_ (one i.leadOrder.length ++ i.leadOrder.map fun g => byteOf g.val),
     have_ (one i.leadIndex), have_ (one i.rounds), have_ (flag i.suspended), have_ (flag i.foreignLive),
     have_ [Config.liveDecisionCode (i.decision.map fun d => (d.lead, d.adoption))], have_ (flag i.standDown),
     have_ (flag i.complete), have_ (flag i.releaseQuiet), have_ (flag i.sequencerQuiet),
     have_ (bytes3 (Config.adoptionSetCode i.adoptionSet))]

/-- RESTORE ENTRY (R151); the fields have the widths of SET RESTORE ENTRY's payload, and the skip mark one byte (log 68). -/
def State.restoreRecord (s : State) (k : Nat) : Field :=
  let e := s.ic.restoreList[k]?
  marked e.isSome [e.isSome]
    [orElse [0xFF] (fun r => one r.feeder.val) e, maybe 2 (fun r => le2 r.pickup) e, maybe 2 (fun r => le2 r.settle) e,
     maybe 1 (fun r => flag r.skip) e]

/-- LIST (R187). -/
def State.listRecord (s : State) (k : Nat) : Option Field :=
  let slots (l : List Slot) : Field := marked true [] [have_ (one l.length), have_ (l.map fun i => byteOf i.val)]
  let addresses (l : List Addr) : List Byte := l.map fun u => byteOf (u.val + 1)
  match k with
  | 0 => some (slots s.ae.waitQueue)
  | 1 => some (slots s.ae.releaseList)
  | 2 => some (slots s.se.shedList)
  | 3 => some (marked true [] [have_ (one s.gs.queue.length),
      have_ (s.gs.queue.flatMap fun e => [byteOf e.genset.val, originCode e.origin])])
  | 4 => some (marked true [] [have_ (one s.flc.urgent.length), have_ (addresses s.flc.urgent)])
  | 5 => some (marked true [] [have_ (one s.flc.pollList.length), have_ (one s.flc.cursor),
      have_ (addresses s.flc.pollList)])
  | _ => none

/-- The holder of the sync token (R91). -/
def State.tokenHolder (s : State) : Option LaneId :=
  if s.gs.laneA.any (·.token) then some .a else if s.gs.laneB.any (·.token) then some .b else none

/-- ENGINE (R187). The current lead of block 2 is the one that the IC has named (R147), also before the GS takes its request and
after the GS refuses it (log 95). -/
def State.engineRecord (s : State) (k : Nat) : Option Field :=
  match k with
  | 0 => some (marked true [s.ae.inFlight.isSome]
      [have_ (timerBytes s.ae.stepGuard), have_ (optHandleBytes (s.ae.inFlight.map (·.handle))), have_ (le4 s.ae.arrivals)])
  | 1 => some (marked true [s.se.naming.isSome]
      [have_ [s.se.state.code], have_ (le4 s.inFlightCharge), have_ (optHandleBytes s.se.naming)])
  | 2 => some (marked true [s.gs.stopCandidate.isSome, s.ic.lead.isSome]
      [have_ [laneCode s.tokenHolder], have_ (timerBytes s.gs.stopDelay),
       orElse [0xFF] (fun g => one (Fin.val g)) s.gs.stopCandidate, orElse [0xFF] (fun g => one (Fin.val g)) s.ic.lead])
  | 3 => some (marked true [s.cu.resumeState.isSome]
      [have_ [s.cu.state.code], orElse [0xFF] (fun c => [CurtailState.code c]) s.cu.resumeState,
       have_ (timerBytes (some s.cu.sharePeriod)), have_ (timerBytes s.cu.releaseDelay),
       have_ [match s.cu.claim with | none => 0 | some .raise => 1 | some .release => 2]])
  | _ => none

/-- The record of a kind at an index, or none outside their ranges (R186). -/
def State.record (s : State) (kind index : Nat) : Option Field :=
  match kind with
  | 0x01 => (index? 32 index).map s.permitRecord
  | 0x02 => (index? 24 index).map s.feederRecord
  | 0x03 => (index? 6 index).map s.gensetRecord
  | 0x04 => if index = 0 then some (s.laneRecord .a) else if index = 1 then some (s.laneRecord .b) else none
  | 0x05 => (index? 128 index).map s.stepRecord
  | 0x06 => (index? 8 index).map s.arrayRecord
  | 0x07 => if index < 8 then (index? 8 index).map fun a => shareRecord s.cu.bankA[a]
            else (index? 8 (index - 8)).map fun a => shareRecord s.cu.bankB[a]
  | 0x08 => if index = 0 then none else (index? 32 (index - 1)).map s.unitRecord
  | 0x09 => if index = 0 then some s.islandRecord else none
  | 0x0A => if index < 24 then some (s.restoreRecord index) else none
  | 0x0B => s.listRecord index
  | 0x0C => s.engineRecord index
  | _ => none

/-- The payload of a LOOK UP: kind, index, record (09 section 9.5). -/
def State.lookUp (s : State) (kind index : Nat) : Option (List Byte) :=
  (s.record kind index).map fun r => one kind ++ one index ++ filled kind 0 r

/-- The account record of READ ACCOUNT, 45 bytes (R17, 09 section 9.5). -/
def State.accountRecord (s : State) : List Byte :=
  le4 s.onlineCapacity ++ le4 s.minimumLoad ++ le4 s.stepAcceptance ++ le4 s.chargedLoad ++ le4 s.measuredLoad
    ++ le4 s.exposure ++ le4 s.reserveRequirement ++ le4Signed s.headroom ++ le4 s.ceiling ++ le4 s.capacityWanted
    ++ one (flagsOf [s.needs.ae.isSome, s.needs.ic.isSome]) ++ le2 (s.needs.ae.getD 0) ++ le2 (s.needs.ic.getD 0)

end Sys2Proof.Machine
end

