-- ==== Sys2Proof/Machine/Station.lean ====
section
/-! DEFINITION. The 35 station commands (08 R183; 09 section 9.6): each command's tests in the order its rule names them
(log 43), its effect at the owning block, and its reply. -/

namespace Sys2Proof.Machine

/-- The result of a station command: DONE with a payload, or a refusal, and the state after it (R183). -/
structure Result where
  state : State
  reply : Except Reason (List Byte)

def done (payload : List Byte) (s : State) : Result := { state := s, reply := .ok payload }

/-- A refused command changes no record, unless its rule says otherwise (R183). -/
def refuse (r : Reason) (s : State) : Result := { state := s, reply := .error r }

/-- The reply of a command (R183, 09 section 9.1). -/
def Result.toReply (code : Byte) (r : Result) : Reply :=
  match r.reply with
  | .ok p => { status := .done, echo := code, payload := p }
  | .error e => { status := .refused, echo := code, payload := [reasonCode e] }

/-- Execution ends: the reply is held and READY rises (R180, R181). -/
def State.hold (s : State) (r : Reply) : State := { s with sp := { s.sp with held := r, executing := none } }

/-- A station command executed at its owning block, as one event (R183). -/
def State.station (i : Instr) (f : State → Result) (s : State) : Host.Outcome State Fault Refusal :=
  State.taking i (fun t => (f t).state.hold ((f t).toReply (requestCode i))) s

/-- NOT RUNNING in SETUP, DARK and RESTART. -/
def State.notRunning (s : State) : Bool := !s.active

/-! ## Station Port -/

/-- LOOK UP (R186). -/
def State.cmdLookUp (kind index : Nat) (s : State) : Result :=
  match s.lookUp kind index with
  | some p => done p s
  | none => refuse .outOfRange s

/-- READ NOTICES (R185). -/
def State.cmdReadNotices (s : State) : Result := done s.noticeBytes s.clearFlags

/-- What a written setting does at the block that uses it (R189). A write of auto restart to on starts the idle holdoff also where
it was on already (R144, log 67). The restore margin and the minimum off time are used at the next judging (R68): their write
makes none (log 45). -/
def State.settingTaken (st : Setting) (value : Nat) (s : State) : State :=
  match st with
  | .baseReserve | .cloudFactor | .floorMargin | .startLevel => s.post fun t => t.putSetting st value
  | .startDemandDelay => (s.putSetting st value).judgeNeed
  | .autoStop =>
    let t := s.putSetting st value
    (if value = 0 then t.dropStop else t).judgeStop
  | .stopLevel => (s.putSetting st value).judgeStop
  | .autoRestart =>
    let t := s.putSetting st value
    if value = 1 ∧ t.ic.state = .dark ∧ t.ic.holdoff.isNone ∧ t.ic.heldLive = false then t.startHoldoff else t
  | _ => s.putSetting st value

/-- SET SETTING (R189). -/
def State.cmdSetSetting (number value : Nat) (s : State) : Result :=
  match Setting.ofNumber number with
  | none => refuse .outOfRange s
  | some st =>
    if !st.inRange value then refuse .outOfRange s
    else if (st = .missedLimit ∨ st = .baudRate) ∧ s.ic.state ≠ .setup then refuse .protected_ s
    else done (one number ++ le4 value) (s.settingTaken st value)

/-- GET SETTING (R190). -/
def State.cmdGetSetting (number : Nat) (s : State) : Result :=
  match Setting.ofNumber number with
  | none => refuse .outOfRange s
  | some st => done (one number ++ le4 (s.setting st)) s

/-! ## Permits (R27 to R30, R70) -/

/-- The state code a permit slot shows. -/
def State.permitCode (s : State) (i : Slot) : Byte := (s.permit i).state.code

/-- RESERVE (R27). -/
def State.cmdReserve (kw cls : Nat) (mayWait : Bool) (expiry : Option Nat) (s : State) : Result :=
  if !kwInRange kw || decide (3 < cls) || expiry.any (fun e => e == 0 || decide (65535 < e)) then refuse .outOfRange s
  else if s.ic.state = .restore then refuse .restoring s
  else if s.notRunning then refuse .notRunning s
  else if s.ic.standDown then refuse .standDown s
  else if 8 ≤ s.reservations then refuse .tableFull s
  else
    match s.decideRequest .station cls kw 0 mayWait (secs (s.setting .defaultWaitLimit)) expiry with
    | (.admitted h, t) => done (handleBytes h ++ [PermitState.granted.code]) (s.settleAdmission t)
    | (.queued h, t) => done (handleBytes h ++ [PermitState.queued.code]) (s.settleAdmission t)
    | (.refused r, t) => refuse r t

/-- ADJUST (R29). -/
def State.cmdAdjust (h : Handle) (kw : Nat) (s : State) : Result :=
  if !kwInRange kw then refuse .outOfRange s
  else
    match s.live h with
    | none => refuse .staleHandle s
    | some i =>
      match s.adjustPermit i kw with
      | .error r => refuse r s
      | .ok t =>
        let p := t.permit i
        done ([p.state.code] ++ le2 p.requested ++ le2 (if p.ofFeeder then p.released else 0) ++ le2 p.charge)
          (s.settleAdmission t)

/-- RETIRE (R30). -/
def State.cmdRetire (h : Handle) (s : State) : Result :=
  match s.live h with
  | none => refuse .staleHandle s
  | some i =>
    let t := s.retirePermit i
    done [t.permitCode i] (s.settleAdmission t)

/-- SHED NOW (R70). The island state is tested before the handle: in the states it refuses no feeder permit could pass the
other tests (log 20). -/
def State.cmdShedNow (h : Handle) (s : State) : Result :=
  if s.notRunning then refuse .notRunning s
  else
    match s.live h with
    | none => refuse .staleHandle s
    | some i =>
      let p := s.permit i
      if p.ofFeeder ∧ (p.state = .granted ∨ p.state = .staging) then
        let t := s.revoke i .ladder
        done [t.permitCode i] (s.settleAdmission t)
      else refuse .wrongState s

/-! ## Feeders (R52, R55) -/

/-- SET FEEDER (R52). -/
def State.cmdSetFeeder (feeder cls pickup : Nat) (lockout : Bool) (s : State) : Result :=
  match index? 24 feeder with
  | none => refuse .outOfRange s
  | some f =>
    if 3 < cls ∨ 16000 < pickup then refuse .outOfRange s
    else
      let r := s.feeder f
      let t := s.setFeeder f { r with cls := cls, pickup := pickup, lockout := lockout }
      done [] (if r.lockout && !lockout then t.judgeCandidate else t)

/-- Shed seconds cleared. -/
def Feeder.unrotated (r : Feeder) : Feeder := { r with shedSeconds := 0 }

/-- RESET ROTATION (R55). -/
def State.cmdResetRotation (feeder : Nat) (s : State) : Result :=
  if feeder = 255 then
    done [] { s with se := { s.se with feeders := mapTable (fun _ r => r.unrotated) s.se.feeders } }
  else
    match index? 24 feeder with
    | none => refuse .outOfRange s
    | some f => done [] (s.setFeeder f (s.feeder f).unrotated)

/-! ## Gensets and programs (R74, R80, R81, R83, R100, R108, R109) -/

/-- A profile whose fields lie in the ranges of R73, or none (R74). -/
def readProfile (p : ProfileFields) : Option Profile :=
  match index? 8 p.primary, p.dark with
  | some primary, dark =>
    if 1 ≤ p.rated ∧ p.rated ≤ 16000 ∧ p.minimum ≤ p.rated ∧ p.step ≤ p.rated ∧ p.merit ≤ 5 ∧ 1 ≤ p.maxAttempts
        ∧ p.maxAttempts ≤ 4 ∧ p.minRun ≤ 7200 ∧ p.coolDown ≤ 1800 ∧ (dark.getD 0) < 8
    then some
      { rated := p.rated, minimum := p.minimum, step := p.step, merit := p.merit, primary := primary
        dark := dark.bind fun d => index? 8 d, maxAttempts := p.maxAttempts, minRun := p.minRun, coolDown := p.coolDown }
    else none
  | none, _ => none

/-- STARTING, ONLINE or STOPPING: where a profile is protected (R74). -/
def Genset.inUse (g : Genset) : Bool := g.state == .starting || g.state == .online || g.state == .stopping

/-- Whether another defined genset has this merit. -/
def State.meritTaken (s : State) (g : GensetNo) (merit : Nat) : Bool :=
  (indices 6).any fun h => h != g && ((s.genset h).profile.any fun q => q.merit == merit)

/-- SET GENSET (R74). A rated kW of 0 removes, whatever the other fields carry (log 21). -/
def State.cmdSetGenset (genset : Nat) (p : ProfileFields) (s : State) : Result :=
  match index? 6 genset with
  | none => refuse .outOfRange s
  | some g =>
    let r := s.genset g
    if p.rated = 0 then
      if r.inUse then refuse .protected_ s
      else done [] (State.settleGensets s false false
        ((s.unqueue g).setGenset g { r with profile := none, state := .unknown, attempts := 0, rest := none }))
    else
      match readProfile p with
      | none => refuse .outOfRange s
      | some q =>
        if r.inUse then refuse .protected_ s
        else if s.ic.state ≠ .setup ∧ s.meritTaken g q.merit then refuse .config s
        else if r.profile.isNone then
          done [] (s.setGenset g
            { r with profile := some q, state := .unknown, attempts := 0, pointer := slotStart q.primary })
        else done [] (s.setGenset g { r with profile := some q })

/-- A step whose fields lie in their ranges, or none (R83). -/
def readStep (kind arg limit : Nat) : Option ProgStep :=
  match stepKind? kind with
  | none => none
  | some k =>
    if limit = 0 ∨ 65535 < limit ∨ (k = .await ∧ (arg < 1 ∨ 4 < arg)) ∨ (k = .ramp ∧ (arg < 10 ∨ 100 < arg)) then none
    else some { kind := k, arg := arg, limit := limit }

/-- Whether a lane's pointer or step in flight is in a slot of the store (R83). -/
def State.slotInUse (s : State) (slot : Fin 8) : Bool :=
  let uses (r : Run) : Bool :=
    slotAt (s.genset r.genset).pointer == slot || r.inFlight.any fun f => slotAt f.pos == slot
  s.gs.laneA.any uses || s.gs.laneB.any uses

/-- WRITE STEP (R83). -/
def State.cmdWriteStep (slot step kind arg limit : Nat) (s : State) : Result :=
  match index? 8 slot, index? 16 step, readStep kind arg limit with
  | some sl, some st, some q =>
    if s.slotInUse sl then refuse .slotBusy s
    else
      let pos : Fin 128 := slotStart sl + Fin.castLE (by decide) st
      done [] { s with gs := { s.gs with store := s.gs.store.set pos q } }
  | _, _, _ => refuse .outOfRange s

/-- The state code of a genset. -/
def State.gensetCode (s : State) (g : GensetNo) : Byte := (s.genset g).state.code

/-- START (R109). -/
def State.cmdStart (genset : Nat) (s : State) : Result :=
  match index? 6 genset with
  | none => refuse .outOfRange s
  | some g =>
    if s.notRunning then refuse .notRunning s
    else if s.ic.standDown then refuse .standDown s
    else if (s.genset g).profile.isNone ∨ (s.genset g).state ≠ .off then refuse .wrongState s
    else
      let t := s.unqueue g
      let t := { t with gs := { t.gs with queue := { genset := g, origin := .station } :: t.gs.queue } }
      let t := State.settleGensets s false false t
      done [t.gensetCode g] t

/-- STOP (R108). -/
def State.cmdStop (genset : Nat) (force : Bool) (s : State) : Result :=
  match index? 6 genset with
  | none => refuse .outOfRange s
  | some g =>
    if s.notRunning then refuse .notRunning s
    else if (s.genset g).state ≠ .online then refuse .wrongState s
    else if (s.laneOf g).isSome then refuse .targetBusy s
    else if force = false ∧ s.headroom < (s.genset g).rated then refuse .noHeadroom s
    else done [] (State.settleGensets s false false (s.decideStop g))

/-- ABORT START (R100). -/
def State.cmdAbortStart (genset : Nat) (s : State) : Result :=
  match index? 6 genset with
  | none => refuse .outOfRange s
  | some g =>
    let result (t : State) : Result :=
      let t := State.settleGensets s false false t
      done [t.gensetCode g] t
    if s.queued g then result (s.unqueue g)
    else
      match s.laneOf g with
      | some lane => result (s.stationAbort lane)
      | none => refuse .wrongState s

/-- CLEAR FAILED (R81). -/
def State.cmdClearFailed (genset : Nat) (s : State) : Result :=
  match index? 6 genset with
  | none => refuse .outOfRange s
  | some g =>
    let r := s.genset g
    if r.state = .failed ∨ r.state = .off then
      done [] (State.settleGensets s true false (s.setGenset g
        { r with state := .off, attempts := 0, rest := none
                 pointer := (r.profile.map fun q => slotStart q.primary).getD r.pointer }))
    else refuse .wrongState s

/-- LOCK OUT (R80). -/
def State.cmdLockOut (genset : Nat) (s : State) : Result :=
  match index? 6 genset with
  | none => refuse .outOfRange s
  | some g =>
    let r := s.genset g
    if r.profile.isNone then refuse .wrongState s
    else
      match r.state with
      | .locked => done [] s
      | .off | .failed | .unknown =>
        done [] (State.settleGensets s false false
          ((s.unqueue g).setGenset g { r with state := .locked, rest := none }))
      | .starting | .online | .stopping => refuse .wrongState s

/-- UNLOCK (R80). -/
def State.cmdUnlock (genset : Nat) (s : State) : Result :=
  match index? 6 genset with
  | none => refuse .outOfRange s
  | some g =>
    let r := s.genset g
    if r.state = .locked then done [] (s.setGenset g { r with state := .unknown }) else refuse .wrongState s

/-! ## Arrays and curtailment (R114, R117, R118, R120, R121) -/

/-- SET ARRAY (R114). -/
def State.cmdSetArray (array nameplate fallback : Nat) (s : State) : Result :=
  match index? 8 array with
  | none => refuse .outOfRange s
  | some a =>
    if 16000 < nameplate ∨ nameplate < fallback then refuse .outOfRange s
    else if s.ic.state ≠ .setup ∧ s.cu.state ≠ .off then refuse .protected_ s
    else done [] (s.defineArray a nameplate fallback)

/-- SET SHARE (R117). -/
def State.cmdSetShare (bank array weight limit : Nat) (enabled : Bool) (s : State) : Result :=
  match index? 8 array with
  | none => refuse .outOfRange s
  | some a =>
    let sh : Share := { weight := weight, limit := limit, enabled := enabled }
    if 1 < bank ∨ 100 < weight ∨ 16000 < limit then refuse .outOfRange s
    else if bank = 0 then
      if s.cu.current = .a then refuse .bankActive s
      else done [] { s with cu := { s.cu with bankA := s.cu.bankA.set a sh } }
    else if s.cu.current = .b then refuse .bankActive s
    else done [] { s with cu := { s.cu with bankB := s.cu.bankB.set a sh } }

/-- SWAP BANKS (R118). -/
def State.cmdSwapBanks (s : State) : Result := done [] { s with cu := { s.cu with swapPending := true } }

/-- CURTAIL ON (R120). -/
def State.cmdCurtailOn (s : State) : Result := done [s.curtailOn.cu.state.code] s.curtailOn

/-- CURTAIL OFF (R121). -/
def State.cmdCurtailOff (s : State) : Result := done [s.curtailOff.cu.state.code] s.curtailOff

/-! ## Island (R141, R145, R150, R151, R156, R158) -/

/-- The configuration that RUN asks for (R141). -/
def State.configured (s : State) : Bool :=
  let defined := (indices 6).filter fun g => (s.genset g).profile.isSome
  !s.flc.pollList.isEmpty && !defined.isEmpty && defined.all fun g => !s.meritTaken g (s.genset g).merit

/-- RUN (R141). -/
def State.cmdRun (s : State) : Result :=
  if s.ic.state ≠ .setup then refuse .wrongState s
  else if !s.configured then refuse .config s
  else done [islandCode s.leaveSetup.ic.state] s.leaveSetup

/-- RESTART (R145). -/
def State.cmdRestart (s : State) : Result :=
  if s.ic.state ≠ .dark ∨ s.ic.heldLive then refuse .wrongState s
  else if s.ic.leadOrder.isEmpty then refuse .config s
  else done [] ({ s with ic := { s.ic with suspended := false, rounds := 0, holdoff := none } }).enterRestart

/-- FINISH RESTORE (R156). -/
def State.cmdFinishRestore (s : State) : Result :=
  if s.ic.state = .restore then done [] s.enterRun else refuse .wrongState s

/-- SET RESTORE ENTRY (R151). With feeder FFh the pickup kW and the settle delay are not looked at, whatever they carry
(log 61). -/
def State.cmdSetRestoreEntry (position feeder pickup settle : Nat) (s : State) : Result :=
  let l := s.ic.restoreList
  let put (l : List RestoreEntry) : Result := done [] { s with ic := { s.ic with restoreList := l } }
  if 23 < position ∨ l.length < position then refuse .outOfRange s
  else if feeder = 255 then
    if s.ic.state = .restore then refuse .restoring s else put (l.take position)
  else
    match index? 24 feeder with
    | none => refuse .outOfRange s
    | some f =>
      let e : RestoreEntry := { feeder := f, pickup := pickup, settle := settle }
      if 16000 < pickup ∨ 600 < settle then refuse .outOfRange s
      else if ((l.take position) ++ l.drop (position + 1)).any (fun k => k.feeder == f) then refuse .config s
      else if s.ic.state = .restore then refuse .restoring s
      else put (l.take position ++ e :: l.drop (position + 1))

/-- Numbers that all name records of a table of `n`, or none. -/
def readIndices (n : Nat) (l : List Nat) : Option (List (Fin n)) := l.mapM (index? n)

/-- Whether no element stands in a list more than `k` times. -/
def atMost {α : Type} [BEq α] (k : Nat) (l : List α) : Bool := l.all fun a => decide (l.count a ≤ k)

/-- SET LEAD ORDER (R150). -/
def State.cmdSetLeadOrder (gensets : List Nat) (s : State) : Result :=
  if 6 < gensets.length then refuse .outOfRange s
  else
    match readIndices 6 gensets with
    | none => refuse .outOfRange s
    | some l =>
      if !atMost 1 l then refuse .config s
      else if s.ic.state = .restart then refuse .wrongState s
      else done [] { s with ic := { s.ic with leadOrder := l } }

/-- STAND DOWN (R158). -/
def State.cmdStandDown (s : State) : Result := if s.active then done [] s.beginStandDown else refuse .wrongState s

/-- RESUME (R158). -/
def State.cmdResume (s : State) : Result := done [] s.endStandDown

/-! ## Directory and poll list (R160 to R162) -/

/-- The record that a unit kind and a record number name; the outer none is a number out of range, the inner VACANT
(R160). -/
def readUnit (kind record : Nat) : Option (Option UnitRec) :=
  match kind with
  | 0 => some none
  | 1 => (index? 24 record).map fun f => some (.feeder f)
  | 2 => (index? 6 record).map fun g => some (.genset g)
  | 3 => (index? 8 record).map fun a => some (.array a)
  | _ => none

/-- SET UNIT (R160); the permission is judged before any other test (R161). -/
def State.cmdSetUnit (address kind record : Nat) (s : State) : Result :=
  if !s.editable then refuse .protected_ s
  else if address = 0 then refuse .outOfRange s
  else
    match index? 32 (address - 1), readUnit kind record with
    | some u, some b =>
      if (s.entry u).bound = b then done [] s
      else if b.any (fun r => (s.addrOf r).isSome) then refuse .config s
      else done [] (s.bind u b)
    | _, _ => refuse .outOfRange s

/-- SET POLL LIST (R162). -/
def State.cmdSetPollList (addresses : List Nat) (s : State) : Result :=
  if !s.editable then refuse .protected_ s
  else if 48 < addresses.length ∨ addresses.any (fun a => a == 0) then refuse .outOfRange s
  else
    match readIndices 32 (addresses.map (· - 1)) with
    | none => refuse .outOfRange s
    | some l =>
      if !atMost 4 l then refuse .config s
      else if l.isEmpty ∧ s.ic.state ≠ .setup then refuse .config s
      else done [] (s.setPolls l)

end Sys2Proof.Machine
end

