-- ==== Sys2Proof/Machine/Port.lean ====
section
/-! DEFINITION. The Station Port's transactions (R179 to R182) and the three resets (R191 to R193, with the reset columns of
chapters 1 to 7). -/

namespace Sys2Proof.Machine

/-! ## Reply frames (R179, R194) -/

/-- A list of bytes filled with FFh up to a length. -/
def padded (n : Nat) (l : List Byte) : List Byte := l ++ List.replicate (n - l.length) 0xFF

/-- The 64 bytes of a reply frame (09 section 9.1). -/
def replyFrame (r : Reply) : List Byte :=
  let body := [r.status.code, r.echo, byteOf r.payload.length] ++ r.payload
  padded 64 (body ++ [crc8 body])

/-- The BUSY reply: it echoes the request in execution (R181). -/
def State.busyReply (s : State) : Reply := { status := .busy, echo := s.sp.executing.getD 0, payload := [] }

/-! ## Transactions -/

/-- A transaction begins; it is busy while READY is low (R179, R181). -/
def State.beginTransaction (s : State) : State :=
  let busy := !s.ready
  { s with sp := { s.sp with
    transaction := some { busy := busy, frame := replyFrame (if busy then s.busyReply else s.sp.held) } } }

/-- CS takes a level. -/
def State.setCs (s : State) (low : Bool) : State := { s with pins := { s.pins with csLow := low } }

/-- CS falls: a transaction begins, unless CS was low already (log 34). -/
def State.csFalls (s : State) : State :=
  if s.pins.csLow || s.inReset then s.setCs true else (s.setCs true).beginTransaction

/-- An error reply to a request that is not executed (R182). -/
def State.answerError (s : State) (status : Status) (code : Byte) : State :=
  s.hold { status := status, echo := code, payload := [] }

/-- A request is judged, and handed to execution where it passes (R182, R183). -/
def State.judgeRequest (s : State) (frame : List Byte) : State :=
  let code := frame.getD 0 0
  let len := at1 frame 1
  if 60 < len then s.answerError .formatError code
  else if crc8 (frame.take (2 + len)) ≠ frame.getD (2 + len) 0 then s.answerError .checkError code
  else
    match readRequest code ((frame.drop 2).take len) with
    | none => s.answerError .unknownCommand code
    | some none => s.answerError .formatError code
    | some (some i) => ({ s with sp := { s.sp with executing := some code } }).push i

/-- CS rises after these whole bytes on MOSI (R179 to R182). -/
def State.csRises (s : State) (mosi : List Byte) : State :=
  let t := s.setCs false
  if s.inReset then t
  else
    match s.sp.transaction with
    | none => t
    | some x =>
      let t := { t with sp := { t.sp with
        transaction := none, shifted := padded mosi.length (x.frame.take mosi.length) } }
      if x.busy || decide (mosi.length < 64) then t else t.judgeRequest (mosi.take 64)

/-! ## Resets -/

/-- POWER-ON RESET and nRESET: every record at its reset value, held until the reset ends; the pins and the queue of
commands are the world's (R191, R193). -/
def State.hardReset (s : State) : State := { State.reset with pending := s.pending, pins := s.pins, inReset := true }

/-- The reset ends: READY rises, the held bus is the level of BUSLIVE, and a CS already low begins a transaction (R137,
R181, R193). -/
def State.resetEnds (s : State) : State :=
  if s.inReset then
    let t := { s with inReset := false, ic := { s.ic with heldLive := s.pins.buslive } }
    if t.pins.csLow then t.beginTransaction else t
  else s

/-- A permit slot after SOFT RESET (R49). -/
def Permit.softened (p : Permit) : Permit := if p.state = .free then p else { gen := nextGen p.gen }

/-- A feeder record after SOFT RESET (R50). -/
def Feeder.softened (r : Feeder) : Feeder :=
  { r with breaker := .unknown, isLocal := false, permit := none, unconfirmed := none }

/-- A genset record after SOFT RESET (R73); no failure has been kept since (log 50). -/
def Genset.softened (g : Genset) : Genset :=
  { addr := g.addr, profile := g.profile, pointer := (g.profile.map fun p => slotStart p.primary).getD 0 }

/-- An array record after SOFT RESET (R113). The target of a defined array is absent until the next judgement works it out
(log 60). -/
def ArrayRecord.softened (a : ArrayRecord) : ArrayRecord := { addr := a.addr, definition := a.definition }

/-- A directory entry after SOFT RESET (R159, R177). -/
def UnitEntry.softened (e : UnitEntry) : UnitEntry := { bound := e.bound }

/-- The loop after SOFT RESET: a turn under way is ended and its gap follows; a gap that runs already goes on (R177,
log 82). -/
def Loop.softened (gap : Ms) : Loop → Loop
  | .idle => .idle
  | .gap t => .gap t
  | .sending _ _ | .awaiting _ _ | .receiving _ => .gap gap

/-- SOFT RESET (R192): configuration kept, live records cleared, SETUP; tellings on their way are gone with the records they
were to reach. -/
def State.softReset (s : State) : State :=
  { s with
    events := []
    needs := {}
    ae := { permits := mapTable (fun _ p => p.softened) s.ae.permits }
    se := { feeders := mapTable (fun _ r => r.softened) s.se.feeders }
    gs := { gensets := mapTable (fun _ g => g.softened) s.gs.gensets, store := s.gs.store }
    cu := { arrays := mapTable (fun _ a => a.softened) s.cu.arrays, bankA := s.cu.bankA, bankB := s.cu.bankB
            current := s.cu.current, sharePeriod := secs (s.setting .sharePeriod) }
    ic := { heldLive := s.pins.buslive, restoreList := s.ic.restoreList.map RestoreEntry.unskipped
            leadOrder := s.ic.leadOrder }
    flc := { directory := mapTable (fun _ e => e.softened) s.flc.directory, pollList := s.flc.pollList
             loop := s.flc.loop.softened (s.setting .interFrameGap) }
    sp := { s.sp with notices := Vector.replicate 15 false } }

/-- SOFT RESET as a command (R192). -/
def State.cmdSoftReset (s : State) : Result := done [] s.softReset

end Sys2Proof.Machine
end

