-- ==== Sys2Proof/Machine/ExecPort.lean ====
section
/-! DEFINITION. The meanings of the transactions, the resets and the level of BUSLIVE. The input pins are the world's, so these act while the part is held in reset too (R179 to R182, R193). -/

namespace Sys2Proof.Machine

/-- TRANSACTION_BEGIN: CS falls (R179, R181). -/
def execTransactionBegin (s : State) : Host.Outcome State Fault Refusal :=
  .next (s.took .transactionBegin).csFalls

/-- BUSY_TRANSACTION: CS falls while READY is low, which is judged at the fall (R181, log 34). -/
def execBusyTransaction (s : State) : Host.Outcome State Fault Refusal :=
  .next (s.took .busyTransaction).csFalls

/-- TRANSACTION_END: CS rises (R179 to R182). -/
def execTransactionEnd (mosi : List Byte) (s : State) : Host.Outcome State Fault Refusal :=
  .next ((s.took (.transactionEnd mosi)).csRises mosi)

/-- POWER_ON_RESET (R193). -/
def execPowerOnReset (s : State) : Host.Outcome State Fault Refusal :=
  .next s.hardReset

/-- NRESET (R193). -/
def execNreset (s : State) : Host.Outcome State Fault Refusal :=
  .next s.hardReset

/-- RESET_END (R193). -/
def execResetEnd (s : State) : Host.Outcome State Fault Refusal :=
  .next (s.took .resetEnd).resetEnds

/-- BUSLIVE_CHANGE (R139). -/
def execBusliveChange (live : Bool) (s : State) : Host.Outcome State Fault Refusal :=
  .next (if s.inReset then { s with pins := { s.pins with buslive := live } }
    else (s.took (.busliveChange live)).busChanged live)

/-- NOTICE_RAISE: the flag is set (R184). -/
def execNoticeRaise (n : Notice) (s : State) : Host.Outcome State Fault Refusal :=
  s.taking (.noticeRaise n) (fun t => t.raiseFlag n)

end Sys2Proof.Machine
end

