-- ==== Sys2Proof/Machine/ExecShed.lean ====
section
/-! DEFINITION. The meanings of the Shed Engine's events (03). -/

namespace Sys2Proof.Machine

/-- NAMING_END: the SE judges the candidate afresh, however the naming ended (R69). -/
def execNamingEnd (result : NamingEnd) (s : State) : Host.Outcome State Fault Refusal :=
  s.taking (.namingEnd result) State.namingEnded

/-- SE_BALANCE_UPDATE (R56). -/
def execSeBalanceUpdate (s : State) : Host.Outcome State Fault Refusal :=
  s.taking .seBalanceUpdate State.seJudges

/-- SE_REPLY_DELIVERY (R51, R60, R62, R72). -/
def execSeReplyDelivery (d : FeederDelivery) (s : State) : Host.Outcome State Fault Refusal :=
  s.taking (.seReplyDelivery d) (fun t => t.seReply d)

/-- SE_CONTACT_CHANGE (R51, R58). -/
def execSeContactChange (f : FeederNo) (now : Contact) (s : State) : Host.Outcome State Fault Refusal :=
  s.taking (.seContactChange f now) (fun t => t.seContact f now)

/-- REVOKE_DEADLINE_EXPIRY (R63). -/
def execRevokeDeadlineExpiry (slot : Slot) (s : State) : Host.Outcome State Fault Refusal :=
  s.taking (.revokeDeadlineExpiry slot) (fun t => t.revokeFailed slot)

/-- MINIMUM_OFF_TIME: a permit has been SHED for the minimum off time (R68). -/
def execMinimumOffTime (slot : Slot) (s : State) : Host.Outcome State Fault Refusal :=
  s.taking (.minimumOffTime slot) State.judgeCandidate

/-- SE_ISLAND_STATE: the SE judges its state (R56). -/
def execSeIslandState (entered : IslandState) (s : State) : Host.Outcome State Fault Refusal :=
  s.taking (.seIslandState entered) State.seJudges

/-- SE_DARK_ENTRY (R71). -/
def execSeDarkEntry (s : State) : Host.Outcome State Fault Refusal :=
  s.taking .seDarkEntry State.seDark

end Sys2Proof.Machine
end

