-- ==== Sys2Proof/Machine/ExecStation.lean ====
section
/-! DEFINITION. The meanings of the 35 station commands, each one event at its owning block (08 R183). -/

namespace Sys2Proof.Machine

/-- NULL: DONE with no payload, no record changed (R180). -/
def execNull (s : State) : Host.Outcome State Fault Refusal :=
  s.station .null (done [])

/-- LOOK UP (R186). -/
def execLookUp (kind index : Nat) (s : State) : Host.Outcome State Fault Refusal :=
  s.station (.lookUp kind index) (State.cmdLookUp kind index)

/-- READ ACCOUNT (R17, R188). -/
def execReadAccount (s : State) : Host.Outcome State Fault Refusal :=
  s.station .readAccount (fun t => done t.accountRecord t)

/-- READ NOTICES (R185). -/
def execReadNotices (s : State) : Host.Outcome State Fault Refusal :=
  s.station .readNotices State.cmdReadNotices

/-- SET SETTING (R189). -/
def execSetSetting (number value : Nat) (s : State) : Host.Outcome State Fault Refusal :=
  s.station (.setSetting number value) (State.cmdSetSetting number value)

/-- GET SETTING (R190). -/
def execGetSetting (number : Nat) (s : State) : Host.Outcome State Fault Refusal :=
  s.station (.getSetting number) (State.cmdGetSetting number)

/-- SOFT RESET (R192). -/
def execSoftReset (s : State) : Host.Outcome State Fault Refusal :=
  s.station .softReset State.cmdSoftReset

/-- RESERVE (R27). -/
def execReserve (kw cls : Nat) (mayWait : Bool) (expiry : Option Nat) (s : State) : Host.Outcome State Fault Refusal :=
  s.station (.reserve kw cls mayWait expiry) (State.cmdReserve kw cls mayWait expiry)

/-- ADJUST (R29). -/
def execAdjust (h : Handle) (kw : Nat) (s : State) : Host.Outcome State Fault Refusal :=
  s.station (.adjust h kw) (State.cmdAdjust h kw)

/-- RETIRE (R30). -/
def execRetire (h : Handle) (s : State) : Host.Outcome State Fault Refusal :=
  s.station (.retire h) (State.cmdRetire h)

/-- SET FEEDER (R52). -/
def execSetFeeder (feeder cls pickup : Nat) (lockout : Bool) (s : State) : Host.Outcome State Fault Refusal :=
  s.station (.setFeeder feeder cls pickup lockout) (State.cmdSetFeeder feeder cls pickup lockout)

/-- SHED NOW (R70). -/
def execShedNow (h : Handle) (s : State) : Host.Outcome State Fault Refusal :=
  s.station (.shedNow h) (State.cmdShedNow h)

/-- RESET ROTATION (R55). -/
def execResetRotation (feeder : Nat) (s : State) : Host.Outcome State Fault Refusal :=
  s.station (.resetRotation feeder) (State.cmdResetRotation feeder)

/-- SET GENSET (R74). -/
def execSetGenset (genset : Nat) (profile : ProfileFields) (s : State) : Host.Outcome State Fault Refusal :=
  s.station (.setGenset genset profile) (State.cmdSetGenset genset profile)

/-- WRITE STEP (R83). -/
def execWriteStep (slot step kind arg limit : Nat) (s : State) : Host.Outcome State Fault Refusal :=
  s.station (.writeStep slot step kind arg limit) (State.cmdWriteStep slot step kind arg limit)

/-- START (R109). -/
def execStart (genset : Nat) (s : State) : Host.Outcome State Fault Refusal :=
  s.station (.start genset) (State.cmdStart genset)

/-- STOP (R108). -/
def execStop (genset : Nat) (force : Bool) (s : State) : Host.Outcome State Fault Refusal :=
  s.station (.stop genset force) (State.cmdStop genset force)

/-- ABORT START (R100). -/
def execAbortStart (genset : Nat) (s : State) : Host.Outcome State Fault Refusal :=
  s.station (.abortStart genset) (State.cmdAbortStart genset)

/-- CLEAR FAILED (R81). -/
def execClearFailed (genset : Nat) (s : State) : Host.Outcome State Fault Refusal :=
  s.station (.clearFailed genset) (State.cmdClearFailed genset)

/-- LOCK OUT (R80). -/
def execLockOut (genset : Nat) (s : State) : Host.Outcome State Fault Refusal :=
  s.station (.lockOut genset) (State.cmdLockOut genset)

/-- UNLOCK (R80). -/
def execUnlock (genset : Nat) (s : State) : Host.Outcome State Fault Refusal :=
  s.station (.unlock genset) (State.cmdUnlock genset)

/-- SET ARRAY (R114). -/
def execSetArray (array nameplate fallback : Nat) (s : State) : Host.Outcome State Fault Refusal :=
  s.station (.setArray array nameplate fallback) (State.cmdSetArray array nameplate fallback)

/-- SET SHARE (R117). -/
def execSetShare (bank array weight limit : Nat) (enabled : Bool) (s : State) : Host.Outcome State Fault Refusal :=
  s.station (.setShare bank array weight limit enabled) (State.cmdSetShare bank array weight limit enabled)

/-- SWAP BANKS (R118). -/
def execSwapBanks (s : State) : Host.Outcome State Fault Refusal :=
  s.station .swapBanks State.cmdSwapBanks

/-- CURTAIL ON (R120). -/
def execCurtailOn (s : State) : Host.Outcome State Fault Refusal :=
  s.station .curtailOn State.cmdCurtailOn

/-- CURTAIL OFF (R121). -/
def execCurtailOff (s : State) : Host.Outcome State Fault Refusal :=
  s.station .curtailOff State.cmdCurtailOff

/-- RUN (R141). -/
def execRun (s : State) : Host.Outcome State Fault Refusal :=
  s.station .run State.cmdRun

/-- RESTART (R145). -/
def execRestart (s : State) : Host.Outcome State Fault Refusal :=
  s.station .restart State.cmdRestart

/-- FINISH RESTORE (R156). -/
def execFinishRestore (s : State) : Host.Outcome State Fault Refusal :=
  s.station .finishRestore State.cmdFinishRestore

/-- SET RESTORE ENTRY (R151). -/
def execSetRestoreEntry (position feeder pickup settle : Nat) (s : State) : Host.Outcome State Fault Refusal :=
  s.station (.setRestoreEntry position feeder pickup settle) (State.cmdSetRestoreEntry position feeder pickup settle)

/-- SET LEAD ORDER (R150). -/
def execSetLeadOrder (gensets : List Nat) (s : State) : Host.Outcome State Fault Refusal :=
  s.station (.setLeadOrder gensets) (State.cmdSetLeadOrder gensets)

/-- STAND DOWN (R158). -/
def execStandDown (s : State) : Host.Outcome State Fault Refusal :=
  s.station .standDown State.cmdStandDown

/-- RESUME (R158). -/
def execResume (s : State) : Host.Outcome State Fault Refusal :=
  s.station .resume State.cmdResume

/-- SET UNIT (R160, R161). -/
def execSetUnit (address kind record : Nat) (s : State) : Host.Outcome State Fault Refusal :=
  s.station (.setUnit address kind record) (State.cmdSetUnit address kind record)

/-- SET POLL LIST (R161, R162). -/
def execSetPollList (addresses : List Nat) (s : State) : Host.Outcome State Fault Refusal :=
  s.station (.setPollList addresses) (State.cmdSetPollList addresses)

end Sys2Proof.Machine
end

