-- ==== Sys2Proof/Machine/Dispatch.lean ====
section
/-! DEFINITION. One arm per command, each a direct call of its meaning. -/

namespace Sys2Proof.Machine

/-- The effect of a command on everything but the queue. -/
def exec (i : Instr) (s : State) : Host.Outcome State Fault Refusal :=
  match i with
  | .transactionEnd mosi => Sys2Proof.Machine.execTransactionEnd mosi s
  | .busyTransaction => Sys2Proof.Machine.execBusyTransaction s
  | .null => Sys2Proof.Machine.execNull s
  | .lookUp kind index => Sys2Proof.Machine.execLookUp kind index s
  | .readAccount => Sys2Proof.Machine.execReadAccount s
  | .readNotices => Sys2Proof.Machine.execReadNotices s
  | .setSetting number value => Sys2Proof.Machine.execSetSetting number value s
  | .getSetting number => Sys2Proof.Machine.execGetSetting number s
  | .softReset => Sys2Proof.Machine.execSoftReset s
  | .reserve kw cls mayWait expiry => Sys2Proof.Machine.execReserve kw cls mayWait expiry s
  | .adjust h kw => Sys2Proof.Machine.execAdjust h kw s
  | .retire h => Sys2Proof.Machine.execRetire h s
  | .setFeeder feeder cls pickup lockout => Sys2Proof.Machine.execSetFeeder feeder cls pickup lockout s
  | .shedNow h => Sys2Proof.Machine.execShedNow h s
  | .resetRotation feeder => Sys2Proof.Machine.execResetRotation feeder s
  | .setGenset genset profile => Sys2Proof.Machine.execSetGenset genset profile s
  | .writeStep slot step kind arg limit => Sys2Proof.Machine.execWriteStep slot step kind arg limit s
  | .start genset => Sys2Proof.Machine.execStart genset s
  | .stop genset force => Sys2Proof.Machine.execStop genset force s
  | .abortStart genset => Sys2Proof.Machine.execAbortStart genset s
  | .clearFailed genset => Sys2Proof.Machine.execClearFailed genset s
  | .lockOut genset => Sys2Proof.Machine.execLockOut genset s
  | .unlock genset => Sys2Proof.Machine.execUnlock genset s
  | .setArray array nameplate fallback => Sys2Proof.Machine.execSetArray array nameplate fallback s
  | .setShare bank array weight limit enabled => Sys2Proof.Machine.execSetShare bank array weight limit enabled s
  | .swapBanks => Sys2Proof.Machine.execSwapBanks s
  | .curtailOn => Sys2Proof.Machine.execCurtailOn s
  | .curtailOff => Sys2Proof.Machine.execCurtailOff s
  | .run => Sys2Proof.Machine.execRun s
  | .restart => Sys2Proof.Machine.execRestart s
  | .finishRestore => Sys2Proof.Machine.execFinishRestore s
  | .setRestoreEntry position feeder pickup settle => Sys2Proof.Machine.execSetRestoreEntry position feeder pickup settle s
  | .setLeadOrder gensets => Sys2Proof.Machine.execSetLeadOrder gensets s
  | .standDown => Sys2Proof.Machine.execStandDown s
  | .resume => Sys2Proof.Machine.execResume s
  | .setUnit address kind record => Sys2Proof.Machine.execSetUnit address kind record s
  | .setPollList addresses => Sys2Proof.Machine.execSetPollList addresses s
  | .powerOnReset => Sys2Proof.Machine.execPowerOnReset s
  | .nreset => Sys2Proof.Machine.execNreset s
  | .busliveChange live => Sys2Proof.Machine.execBusliveChange live s
  | .deadBusConfirmation => Sys2Proof.Machine.execDeadBusConfirmation s
  | .liveBusConfirmation => Sys2Proof.Machine.execLiveBusConfirmation s
  | .restartHoldoffExpiry => Sys2Proof.Machine.execRestartHoldoffExpiry s
  | .leadStartRequest g => Sys2Proof.Machine.execLeadStartRequest g s
  | .leadOutcome o => Sys2Proof.Machine.execLeadOutcome o s
  | .adoptionRequest why => Sys2Proof.Machine.execAdoptionRequest why s
  | .adoptionAnswer why adopted => Sys2Proof.Machine.execAdoptionAnswer why adopted s
  | .icLaneAbort g => Sys2Proof.Machine.execIcLaneAbort g s
  | .settleExpiry => Sys2Proof.Machine.execSettleExpiry s
  | .walkPermitRequest f kw => Sys2Proof.Machine.execWalkPermitRequest f kw s
  | .walkPermitAnswer answer => Sys2Proof.Machine.execWalkPermitAnswer answer s
  | .walkPermitOutcome h granted => Sys2Proof.Machine.execWalkPermitOutcome h granted s
  | .icHeadroomRise => Sys2Proof.Machine.execIcHeadroomRise s
  | .seIdleTelling idle => Sys2Proof.Machine.execSeIdleTelling idle s
  | .quietMarkChange mark quiet => Sys2Proof.Machine.execQuietMarkChange mark quiet s
  | .adoptionSetRemoval f => Sys2Proof.Machine.execAdoptionSetRemoval f s
  | .icFeederLost f => Sys2Proof.Machine.execIcFeederLost f s
  | .posting p => Sys2Proof.Machine.execPosting p s
  | .raIslandState left entered => Sys2Proof.Machine.execRaIslandState left entered s
  | .aeBalanceUpdate => Sys2Proof.Machine.execAeBalanceUpdate s
  | .stepGuardExpiry => Sys2Proof.Machine.execStepGuardExpiry s
  | .waitDeadlineExpiry slot => Sys2Proof.Machine.execWaitDeadlineExpiry slot s
  | .reservationExpiry slot => Sys2Proof.Machine.execReservationExpiry slot s
  | .startDemandDelay => Sys2Proof.Machine.execStartDemandDelay s
  | .aeReplyDelivery d => Sys2Proof.Machine.execAeReplyDelivery d s
  | .drawRequest d claim => Sys2Proof.Machine.execDrawRequest d claim s
  | .release d h => Sys2Proof.Machine.execRelease d h s
  | .aeContactChange f now => Sys2Proof.Machine.execAeContactChange f now s
  | .supersessionNotice owner target order cause => Sys2Proof.Machine.execSupersessionNotice owner target order cause s
  | .aeDarkEntry => Sys2Proof.Machine.execAeDarkEntry s
  | .namingEnd result => Sys2Proof.Machine.execNamingEnd result s
  | .seBalanceUpdate => Sys2Proof.Machine.execSeBalanceUpdate s
  | .seReplyDelivery d => Sys2Proof.Machine.execSeReplyDelivery d s
  | .seContactChange f now => Sys2Proof.Machine.execSeContactChange f now s
  | .revokeDeadlineExpiry slot => Sys2Proof.Machine.execRevokeDeadlineExpiry slot s
  | .minimumOffTime slot => Sys2Proof.Machine.execMinimumOffTime slot s
  | .seIslandState entered => Sys2Proof.Machine.execSeIslandState entered s
  | .seDarkEntry => Sys2Proof.Machine.execSeDarkEntry s
  | .gsBalanceUpdate => Sys2Proof.Machine.execGsBalanceUpdate s
  | .gsReplyDelivery d => Sys2Proof.Machine.execGsReplyDelivery d s
  | .gsContactLost g now => Sys2Proof.Machine.execGsContactLost g now s
  | .stepLimitExpiry lane => Sys2Proof.Machine.execStepLimitExpiry lane s
  | .readyWaitExpiry lane => Sys2Proof.Machine.execReadyWaitExpiry lane s
  | .minRunExpiry g => Sys2Proof.Machine.execMinRunExpiry g s
  | .restTimerExpiry g => Sys2Proof.Machine.execRestTimerExpiry g s
  | .stopDelayExpiry => Sys2Proof.Machine.execStopDelayExpiry s
  | .phaseLimitExpiry g => Sys2Proof.Machine.execPhaseLimitExpiry g s
  | .coolDownExpiry g => Sys2Proof.Machine.execCoolDownExpiry g s
  | .gsIslandState entered => Sys2Proof.Machine.execGsIslandState entered s
  | .cuBalanceUpdate => Sys2Proof.Machine.execCuBalanceUpdate s
  | .cuReplyDelivery d => Sys2Proof.Machine.execCuReplyDelivery d s
  | .cuContactLost a now => Sys2Proof.Machine.execCuContactLost a now s
  | .sharePeriodExpiry => Sys2Proof.Machine.execSharePeriodExpiry s
  | .raiseClaimAnswer raised => Sys2Proof.Machine.execRaiseClaimAnswer raised s
  | .releaseDelayExpiry => Sys2Proof.Machine.execReleaseDelayExpiry s
  | .releaseClaimAnswer whole raised => Sys2Proof.Machine.execReleaseClaimAnswer whole raised s
  | .holdQuantum a => Sys2Proof.Machine.execHoldQuantum a s
  | .holdLapse a => Sys2Proof.Machine.execHoldLapse a s
  | .cuRunEntry left => Sys2Proof.Machine.execCuRunEntry left s
  | .cuDarkEntry => Sys2Proof.Machine.execCuDarkEntry s
  | .cuRestoreEntry => Sys2Proof.Machine.execCuRestoreEntry s
  | .flcIslandState entered => Sys2Proof.Machine.execFlcIslandState entered s
  | .orderPlacement p => Sys2Proof.Machine.execOrderPlacement p s
  | .orderWithdrawal w => Sys2Proof.Machine.execOrderWithdrawal w s
  | .gapExpiry => Sys2Proof.Machine.execGapExpiry s
  | .frameSent => Sys2Proof.Machine.execFrameSent s
  | .replyStart => Sys2Proof.Machine.execReplyStart s
  | .replyReceived chars => Sys2Proof.Machine.execReplyReceived chars s
  | .receptionTimeout => Sys2Proof.Machine.execReceptionTimeout s
  | .replyWindowExpiry => Sys2Proof.Machine.execReplyWindowExpiry s
  | .noticeRaise n => Sys2Proof.Machine.execNoticeRaise n s
  | .shedListCandidateNamed h => Sys2Proof.Machine.execShedListCandidateNamed h s
  | .resetEnd => Sys2Proof.Machine.execResetEnd s
  | .transactionBegin => Sys2Proof.Machine.execTransactionBegin s

end Sys2Proof.Machine
end

