-- ==== Sys2Proof/WellFormed.lean ====
section
/-! DEFINITION. Which terms of `Instr` a station request can carry: each number fits the field that carries it
(09 section 9.6). Events inside the part carry numbers that are in range by type and are all well formed. -/

namespace Sys2Proof

/-- A number that one byte can carry. -/
def fitsByte (n : Nat) : Bool := decide (n < 256)

/-- A number that two bytes can carry. -/
def fitsTwo (n : Nat) : Bool := decide (n < 65536)

/-- A number that four bytes can carry. -/
def fitsFour (n : Nat) : Bool := decide (n < 4294967296)

/-- A handle as two bytes carry it. -/
def Handle.fits (h : Handle) : Bool := fitsByte h.slot && fitsByte h.gen

/-- A SET GENSET profile as its 14 bytes carry it; FFh is the absent dark slot. -/
def ProfileFields.fits (p : ProfileFields) : Bool :=
  fitsTwo p.rated && fitsTwo p.minimum && fitsTwo p.step && fitsByte p.merit && fitsByte p.primary
    && (match p.dark with | none => true | some d => decide (d < 255))
    && fitsByte p.maxAttempts && fitsTwo p.minRun && fitsTwo p.coolDown

/-- The well-formed commands. A payload has at most 60 bytes (R179), so a list of numbers has at most 59. -/
def Instr.wellFormed : Instr → Bool
  | .lookUp kind index => fitsByte kind && fitsByte index
  | .setSetting number value => fitsByte number && fitsFour value
  | .getSetting number => fitsByte number
  | .reserve kw cls _ expiry =>
      fitsTwo kw && fitsByte cls && (match expiry with | none => true | some e => fitsTwo e)
  | .adjust h kw => h.fits && fitsTwo kw
  | .retire h => h.fits
  | .setFeeder feeder cls pickup _ => fitsByte feeder && fitsByte cls && fitsTwo pickup
  | .shedNow h => h.fits
  | .resetRotation feeder => fitsByte feeder
  | .setGenset genset profile => fitsByte genset && profile.fits
  | .writeStep slot step kind arg limit =>
      fitsByte slot && fitsByte step && fitsByte kind && fitsByte arg && fitsTwo limit
  | .start genset => fitsByte genset
  | .stop genset _ => fitsByte genset
  | .abortStart genset => fitsByte genset
  | .clearFailed genset => fitsByte genset
  | .lockOut genset => fitsByte genset
  | .unlock genset => fitsByte genset
  | .setArray array nameplate fallback => fitsByte array && fitsTwo nameplate && fitsTwo fallback
  | .setShare bank array weight limit _ =>
      fitsByte bank && fitsByte array && fitsByte weight && fitsTwo limit
  | .setRestoreEntry position feeder pickup settle =>
      fitsByte position && fitsByte feeder && fitsTwo pickup && fitsTwo settle
  | .setLeadOrder gensets => decide (gensets.length ≤ 59) && gensets.all fitsByte
  | .setUnit address kind record => fitsByte address && fitsByte kind && fitsByte record
  | .setPollList addresses => decide (addresses.length ≤ 59) && addresses.all fitsByte
  | .transactionEnd _ | .busyTransaction | .null | .readAccount | .readNotices | .softReset | .swapBanks
  | .curtailOn | .curtailOff | .run | .restart | .finishRestore | .standDown | .resume | .powerOnReset | .nreset
  | .busliveChange _ | .deadBusConfirmation | .liveBusConfirmation | .restartHoldoffExpiry | .leadStartRequest _
  | .leadOutcome _ | .adoptionRequest _ | .adoptionAnswer _ _ | .icLaneAbort _ | .settleExpiry
  | .walkPermitRequest _ _ | .walkPermitAnswer _ | .walkPermitOutcome _ _ | .icHeadroomRise | .seIdleTelling _
  | .quietMarkChange _ _ | .adoptionSetRemoval _ | .icFeederLost _ | .posting _ | .raIslandState _ _
  | .aeBalanceUpdate | .stepGuardExpiry | .waitDeadlineExpiry _ | .reservationExpiry _ | .startDemandDelay
  | .aeReplyDelivery _ | .drawRequest _ _ | .release _ _ | .aeContactChange _ _ | .supersessionNotice _ _ _ _
  | .aeDarkEntry | .namingEnd _ | .seBalanceUpdate | .seReplyDelivery _ | .seContactChange _ _
  | .revokeDeadlineExpiry _ | .minimumOffTime _ | .seIslandState _ | .seDarkEntry | .gsBalanceUpdate
  | .gsReplyDelivery _ | .gsContactLost _ _ | .stepLimitExpiry _ | .readyWaitExpiry _ | .minRunExpiry _
  | .restTimerExpiry _ | .stopDelayExpiry | .phaseLimitExpiry _ | .coolDownExpiry _ | .gsIslandState _
  | .cuBalanceUpdate | .cuReplyDelivery _ | .cuContactLost _ _ | .sharePeriodExpiry | .raiseClaimAnswer _
  | .releaseDelayExpiry | .releaseClaimAnswer _ _ | .holdQuantum _ | .holdLapse _ | .cuRunEntry _ | .cuDarkEntry
  | .cuRestoreEntry | .flcIslandState _ | .orderPlacement _ | .orderWithdrawal _ | .gapExpiry | .frameSent
  | .replyStart | .replyReceived _ | .receptionTimeout | .replyWindowExpiry | .noticeRaise _
  | .shedListCandidateNamed _ | .resetEnd | .transactionBegin => true

end Sys2Proof
end

