-- ==== Sys2Proof/Laws/Bytes.lean ====
section
/-! SUPPORT. Numbers in bytes read back, marks read back, and the CRCs' check values. -/

namespace Sys2Proof.Laws

open Sys2Proof.Machine

theorem byteOf_toNat {n : Nat} (h : n < 256) : (byteOf n).toNat = n := by
  simp [byteOf]; omega

theorem two_bytes {n : Nat} (h : n < 65536) : (byteOf n).toNat + 256 * (byteOf (n / 256)).toNat = n := by
  simp [byteOf]; omega

theorem four_bytes {n : Nat} (h : n < 4294967296) :
    (byteOf n).toNat + 256 * (byteOf (n / 256)).toNat
      + 65536 * ((byteOf (n / 65536)).toNat + 256 * (byteOf (n / 16777216)).toNat) = n := by
  simp [byteOf]; omega

theorem markOf_markByte (b : Bool) : markOf (markByte b) = b := by
  cases b <;> simp [markOf, markByte]

theorem byteOf_toNat_map {l : List Nat} (h : l.all fitsByte = true) :
    (l.map byteOf).map (·.toNat) = l := by
  induction l with
  | nil => rfl
  | cons a l ih =>
    simp only [List.all_cons, Bool.and_eq_true, fitsByte, decide_eq_true_eq] at h
    simp only [List.map_cons, ih h.2]
    rw [byteOf_toNat (by omega)]

theorem le2_length (n : Nat) : (le2 n).length = 2 := rfl
theorem le4_length (n : Nat) : (le4 n).length = 4 := rfl
theorem handleBytes_length (h : Handle) : (handleBytes h).length = 2 := rfl

end Sys2Proof.Laws
end

