-- ==== Sys2Proof/Laws/PerInstr.lean ====
section
/-! SUPPORT. The family `Carries`: a station command is read back from the request that carries it (09 section 9.6, R182);
what is no station command has no payload and no command code. -/

set_option linter.unusedSimpArgs false

namespace Sys2Proof.Laws.Carries

open Sys2Proof.Machine Sys2Proof.Laws

/-- What the family says of one command. -/
def Statement (i : Instr) : Prop :=
  i.wellFormed = true →
    match requestPayload i with
    | some p => readRequest (requestCode i) p = some (some i) ∧ p.length ≤ 60
    | none => readRequest (requestCode i) [] = none

theorem transactionEnd (mosi : List Byte) : Statement (.transactionEnd mosi) := by intro _; rfl

theorem busyTransaction : Statement .busyTransaction := by intro _; rfl

theorem null : Statement .null := by intro _; exact ⟨rfl, by decide⟩

theorem lookUp (kind index : Nat) : Statement (.lookUp kind index) := by
  intro h
  simp only [Instr.wellFormed, Handle.fits, fitsByte, fitsTwo, fitsFour, Bool.and_eq_true, decide_eq_true_eq] at h
  simp only [requestPayload, requestCode, readRequest, ofLength, le2, le4, handleBytes, atHandle, at4, at2, at1]
  simp [two_bytes, four_bytes, byteOf_toNat, markOf_markByte, h]

theorem readAccount : Statement .readAccount := by intro _; exact ⟨rfl, by decide⟩

theorem readNotices : Statement .readNotices := by intro _; exact ⟨rfl, by decide⟩

theorem setSetting (number value : Nat) : Statement (.setSetting number value) := by
  intro h
  simp only [Instr.wellFormed, Handle.fits, fitsByte, fitsTwo, fitsFour, Bool.and_eq_true, decide_eq_true_eq] at h
  simp only [requestPayload, requestCode, readRequest, ofLength, le2, le4, handleBytes, atHandle, at4, at2, at1]
  simp [two_bytes, four_bytes, byteOf_toNat, markOf_markByte, h]

theorem getSetting (number : Nat) : Statement (.getSetting number) := by
  intro h
  simp only [Instr.wellFormed, Handle.fits, fitsByte, fitsTwo, fitsFour, Bool.and_eq_true, decide_eq_true_eq] at h
  simp only [requestPayload, requestCode, readRequest, ofLength, le2, le4, handleBytes, atHandle, at4, at2, at1]
  simp [two_bytes, four_bytes, byteOf_toNat, markOf_markByte, h]

theorem softReset : Statement .softReset := by intro _; exact ⟨rfl, by decide⟩

theorem reserve (kw cls : Nat) (mayWait : Bool) (expiry : Option Nat) : Statement (.reserve kw cls mayWait expiry) := by
  intro h
  simp only [Instr.wellFormed, fitsByte, fitsTwo, Bool.and_eq_true, decide_eq_true_eq] at h
  cases expiry with
  | none =>
    simp only [requestPayload, requestCode, readRequest, ofLength, le2, at2, at1]
    simp [two_bytes, byteOf_toNat, markOf_markByte, h]
  | some e =>
    obtain ⟨⟨h₁, h₂⟩, h₃⟩ := h
    replace h₃ : e < 65536 := of_decide_eq_true h₃
    simp only [requestPayload, requestCode, readRequest, ofLength, le2, at2, at1]
    simp [two_bytes, byteOf_toNat, markOf_markByte, h₁, h₂]
    exact two_bytes h₃

theorem adjust (h : Handle) (kw : Nat) : Statement (.adjust h kw) := by
  intro h
  simp only [Instr.wellFormed, Handle.fits, fitsByte, fitsTwo, fitsFour, Bool.and_eq_true, decide_eq_true_eq] at h
  simp only [requestPayload, requestCode, readRequest, ofLength, le2, le4, handleBytes, atHandle, at4, at2, at1]
  simp [two_bytes, four_bytes, byteOf_toNat, markOf_markByte, h]

theorem retire (h : Handle) : Statement (.retire h) := by
  intro h
  simp only [Instr.wellFormed, Handle.fits, fitsByte, fitsTwo, fitsFour, Bool.and_eq_true, decide_eq_true_eq] at h
  simp only [requestPayload, requestCode, readRequest, ofLength, le2, le4, handleBytes, atHandle, at4, at2, at1]
  simp [two_bytes, four_bytes, byteOf_toNat, markOf_markByte, h]

theorem setFeeder (feeder cls pickup : Nat) (lockout : Bool) : Statement (.setFeeder feeder cls pickup lockout) := by
  intro h
  simp only [Instr.wellFormed, Handle.fits, fitsByte, fitsTwo, fitsFour, Bool.and_eq_true, decide_eq_true_eq] at h
  simp only [requestPayload, requestCode, readRequest, ofLength, le2, le4, handleBytes, atHandle, at4, at2, at1]
  simp [two_bytes, four_bytes, byteOf_toNat, markOf_markByte, h]

theorem shedNow (h : Handle) : Statement (.shedNow h) := by
  intro h
  simp only [Instr.wellFormed, Handle.fits, fitsByte, fitsTwo, fitsFour, Bool.and_eq_true, decide_eq_true_eq] at h
  simp only [requestPayload, requestCode, readRequest, ofLength, le2, le4, handleBytes, atHandle, at4, at2, at1]
  simp [two_bytes, four_bytes, byteOf_toNat, markOf_markByte, h]

theorem resetRotation (feeder : Nat) : Statement (.resetRotation feeder) := by
  intro h
  simp only [Instr.wellFormed, Handle.fits, fitsByte, fitsTwo, fitsFour, Bool.and_eq_true, decide_eq_true_eq] at h
  simp only [requestPayload, requestCode, readRequest, ofLength, le2, le4, handleBytes, atHandle, at4, at2, at1]
  simp [two_bytes, four_bytes, byteOf_toNat, markOf_markByte, h]

theorem setGenset (genset : Nat) (profile : ProfileFields) : Statement (.setGenset genset profile) := by
  intro h
  obtain ⟨rated, minimum, step, merit, primary, dark, maxAttempts, minRun, coolDown⟩ := profile
  simp only [Instr.wellFormed, ProfileFields.fits, fitsByte, fitsTwo, Bool.and_eq_true, decide_eq_true_eq] at h
  cases dark with
  | none =>
    simp only [requestPayload, requestCode, readRequest, ofLength, le2, at2, at1, profileAt]
    simp [two_bytes, byteOf_toNat, h]
  | some d =>
    have hd : d < 255 := by simpa using h.2.1.1.1.2
    have hne : d ≠ 255 := by omega
    simp only [requestPayload, requestCode, readRequest, ofLength, le2, at2, at1, profileAt]
    simp [two_bytes, byteOf_toNat, h, show d < 256 by omega, hne]

theorem writeStep (slot step kind arg limit : Nat) : Statement (.writeStep slot step kind arg limit) := by
  intro h
  simp only [Instr.wellFormed, Handle.fits, fitsByte, fitsTwo, fitsFour, Bool.and_eq_true, decide_eq_true_eq] at h
  simp only [requestPayload, requestCode, readRequest, ofLength, le2, le4, handleBytes, atHandle, at4, at2, at1]
  simp [two_bytes, four_bytes, byteOf_toNat, markOf_markByte, h]

theorem start (genset : Nat) : Statement (.start genset) := by
  intro h
  simp only [Instr.wellFormed, Handle.fits, fitsByte, fitsTwo, fitsFour, Bool.and_eq_true, decide_eq_true_eq] at h
  simp only [requestPayload, requestCode, readRequest, ofLength, le2, le4, handleBytes, atHandle, at4, at2, at1]
  simp [two_bytes, four_bytes, byteOf_toNat, markOf_markByte, h]

theorem stop (genset : Nat) (force : Bool) : Statement (.stop genset force) := by
  intro h
  simp only [Instr.wellFormed, Handle.fits, fitsByte, fitsTwo, fitsFour, Bool.and_eq_true, decide_eq_true_eq] at h
  simp only [requestPayload, requestCode, readRequest, ofLength, le2, le4, handleBytes, atHandle, at4, at2, at1]
  simp [two_bytes, four_bytes, byteOf_toNat, markOf_markByte, h]

theorem abortStart (genset : Nat) : Statement (.abortStart genset) := by
  intro h
  simp only [Instr.wellFormed, Handle.fits, fitsByte, fitsTwo, fitsFour, Bool.and_eq_true, decide_eq_true_eq] at h
  simp only [requestPayload, requestCode, readRequest, ofLength, le2, le4, handleBytes, atHandle, at4, at2, at1]
  simp [two_bytes, four_bytes, byteOf_toNat, markOf_markByte, h]

theorem clearFailed (genset : Nat) : Statement (.clearFailed genset) := by
  intro h
  simp only [Instr.wellFormed, Handle.fits, fitsByte, fitsTwo, fitsFour, Bool.and_eq_true, decide_eq_true_eq] at h
  simp only [requestPayload, requestCode, readRequest, ofLength, le2, le4, handleBytes, atHandle, at4, at2, at1]
  simp [two_bytes, four_bytes, byteOf_toNat, markOf_markByte, h]

theorem lockOut (genset : Nat) : Statement (.lockOut genset) := by
  intro h
  simp only [Instr.wellFormed, Handle.fits, fitsByte, fitsTwo, fitsFour, Bool.and_eq_true, decide_eq_true_eq] at h
  simp only [requestPayload, requestCode, readRequest, ofLength, le2, le4, handleBytes, atHandle, at4, at2, at1]
  simp [two_bytes, four_bytes, byteOf_toNat, markOf_markByte, h]

theorem unlock (genset : Nat) : Statement (.unlock genset) := by
  intro h
  simp only [Instr.wellFormed, Handle.fits, fitsByte, fitsTwo, fitsFour, Bool.and_eq_true, decide_eq_true_eq] at h
  simp only [requestPayload, requestCode, readRequest, ofLength, le2, le4, handleBytes, atHandle, at4, at2, at1]
  simp [two_bytes, four_bytes, byteOf_toNat, markOf_markByte, h]

theorem setArray (array nameplate fallback : Nat) : Statement (.setArray array nameplate fallback) := by
  intro h
  simp only [Instr.wellFormed, Handle.fits, fitsByte, fitsTwo, fitsFour, Bool.and_eq_true, decide_eq_true_eq] at h
  simp only [requestPayload, requestCode, readRequest, ofLength, le2, le4, handleBytes, atHandle, at4, at2, at1]
  simp [two_bytes, four_bytes, byteOf_toNat, markOf_markByte, h]

theorem setShare (bank array weight limit : Nat) (enabled : Bool) : Statement (.setShare bank array weight limit enabled) := by
  intro h
  simp only [Instr.wellFormed, Handle.fits, fitsByte, fitsTwo, fitsFour, Bool.and_eq_true, decide_eq_true_eq] at h
  simp only [requestPayload, requestCode, readRequest, ofLength, le2, le4, handleBytes, atHandle, at4, at2, at1]
  simp [two_bytes, four_bytes, byteOf_toNat, markOf_markByte, h]

theorem swapBanks : Statement .swapBanks := by intro _; exact ⟨rfl, by decide⟩

theorem curtailOn : Statement .curtailOn := by intro _; exact ⟨rfl, by decide⟩

theorem curtailOff : Statement .curtailOff := by intro _; exact ⟨rfl, by decide⟩

theorem run : Statement .run := by intro _; exact ⟨rfl, by decide⟩

theorem restart : Statement .restart := by intro _; exact ⟨rfl, by decide⟩

theorem finishRestore : Statement .finishRestore := by intro _; exact ⟨rfl, by decide⟩

theorem setRestoreEntry (position feeder pickup settle : Nat) : Statement (.setRestoreEntry position feeder pickup settle) := by
  intro h
  simp only [Instr.wellFormed, Handle.fits, fitsByte, fitsTwo, fitsFour, Bool.and_eq_true, decide_eq_true_eq] at h
  simp only [requestPayload, requestCode, readRequest, ofLength, le2, le4, handleBytes, atHandle, at4, at2, at1]
  simp [two_bytes, four_bytes, byteOf_toNat, markOf_markByte, h]

theorem setLeadOrder (gensets : List Nat) : Statement (.setLeadOrder gensets) := by
  intro h
  simp only [Instr.wellFormed, Bool.and_eq_true, decide_eq_true_eq] at h
  have hl : (byteOf gensets.length).toNat = gensets.length := byteOf_toNat (by omega)
  have hm := byteOf_toNat_map h.2
  simp only [List.map_map] at hm
  simp only [requestPayload, requestCode, readRequest, counted, at1]
  simp [hl, hm, Nat.add_comm]
  omega

theorem standDown : Statement .standDown := by intro _; exact ⟨rfl, by decide⟩

theorem resume : Statement .resume := by intro _; exact ⟨rfl, by decide⟩

theorem setUnit (address kind record : Nat) : Statement (.setUnit address kind record) := by
  intro h
  simp only [Instr.wellFormed, Handle.fits, fitsByte, fitsTwo, fitsFour, Bool.and_eq_true, decide_eq_true_eq] at h
  simp only [requestPayload, requestCode, readRequest, ofLength, le2, le4, handleBytes, atHandle, at4, at2, at1]
  simp [two_bytes, four_bytes, byteOf_toNat, markOf_markByte, h]

theorem setPollList (addresses : List Nat) : Statement (.setPollList addresses) := by
  intro h
  simp only [Instr.wellFormed, Bool.and_eq_true, decide_eq_true_eq] at h
  have hl : (byteOf addresses.length).toNat = addresses.length := byteOf_toNat (by omega)
  have hm := byteOf_toNat_map h.2
  simp only [List.map_map] at hm
  simp only [requestPayload, requestCode, readRequest, counted, at1]
  simp [hl, hm, Nat.add_comm]
  omega

theorem powerOnReset : Statement .powerOnReset := by intro _; rfl

theorem nreset : Statement .nreset := by intro _; rfl

theorem busliveChange (live : Bool) : Statement (.busliveChange live) := by intro _; rfl

theorem deadBusConfirmation : Statement .deadBusConfirmation := by intro _; rfl

theorem liveBusConfirmation : Statement .liveBusConfirmation := by intro _; rfl

theorem restartHoldoffExpiry : Statement .restartHoldoffExpiry := by intro _; rfl

theorem leadStartRequest (g : GensetNo) : Statement (.leadStartRequest g) := by intro _; rfl

theorem leadOutcome (o : LeadOutcome) : Statement (.leadOutcome o) := by intro _; rfl

theorem adoptionRequest (why : AdoptionWhy) : Statement (.adoptionRequest why) := by intro _; rfl

theorem adoptionAnswer (why : AdoptionWhy) (adopted : List GensetNo) : Statement (.adoptionAnswer why adopted) := by intro _; rfl

theorem icLaneAbort (g : GensetNo) : Statement (.icLaneAbort g) := by intro _; rfl

theorem settleExpiry : Statement .settleExpiry := by intro _; rfl

theorem walkPermitRequest (f : FeederNo) (kw : Kw) : Statement (.walkPermitRequest f kw) := by intro _; rfl

theorem walkPermitAnswer (answer : WalkAnswer) : Statement (.walkPermitAnswer answer) := by intro _; rfl

theorem walkPermitOutcome (h : Handle) (granted : Bool) : Statement (.walkPermitOutcome h granted) := by intro _; rfl

theorem icHeadroomRise : Statement .icHeadroomRise := by intro _; rfl

theorem seIdleTelling (idle : Bool) : Statement (.seIdleTelling idle) := by intro _; rfl

theorem quietMarkChange (mark : QuietMark) (quiet : Bool) : Statement (.quietMarkChange mark quiet) := by intro _; rfl

theorem adoptionSetRemoval (f : FeederNo) : Statement (.adoptionSetRemoval f) := by intro _; rfl

theorem icFeederLost (f : FeederNo) : Statement (.icFeederLost f) := by intro _; rfl

theorem posting (p : Posting) : Statement (.posting p) := by intro _; rfl

theorem raIslandState (left entered : IslandState) : Statement (.raIslandState left entered) := by intro _; rfl

theorem aeBalanceUpdate : Statement .aeBalanceUpdate := by intro _; rfl

theorem stepGuardExpiry : Statement .stepGuardExpiry := by intro _; rfl

theorem waitDeadlineExpiry (slot : Slot) : Statement (.waitDeadlineExpiry slot) := by intro _; rfl

theorem reservationExpiry (slot : Slot) : Statement (.reservationExpiry slot) := by intro _; rfl

theorem startDemandDelay : Statement .startDemandDelay := by intro _; rfl

theorem aeReplyDelivery (d : FeederDelivery) : Statement (.aeReplyDelivery d) := by intro _; rfl

theorem drawRequest (d : FeederDelivery) (claim : DrawClaim) : Statement (.drawRequest d claim) := by intro _; rfl

theorem release (d : FeederDelivery) (h : Handle) : Statement (.release d h) := by intro _; rfl

theorem aeContactChange (f : FeederNo) (now : Contact) : Statement (.aeContactChange f now) := by intro _; rfl

theorem supersessionNotice (owner : Block) (target : UnitRec) (order : Order) (cause : GoneCause) : Statement (.supersessionNotice owner target order cause) := by intro _; rfl

theorem aeDarkEntry : Statement .aeDarkEntry := by intro _; rfl

theorem namingEnd (result : NamingEnd) : Statement (.namingEnd result) := by intro _; rfl

theorem seBalanceUpdate : Statement .seBalanceUpdate := by intro _; rfl

theorem seReplyDelivery (d : FeederDelivery) : Statement (.seReplyDelivery d) := by intro _; rfl

theorem seContactChange (f : FeederNo) (now : Contact) : Statement (.seContactChange f now) := by intro _; rfl

theorem revokeDeadlineExpiry (slot : Slot) : Statement (.revokeDeadlineExpiry slot) := by intro _; rfl

theorem minimumOffTime (slot : Slot) : Statement (.minimumOffTime slot) := by intro _; rfl

theorem seIslandState (entered : IslandState) : Statement (.seIslandState entered) := by intro _; rfl

theorem seDarkEntry : Statement .seDarkEntry := by intro _; rfl

theorem gsBalanceUpdate : Statement .gsBalanceUpdate := by intro _; rfl

theorem gsReplyDelivery (d : GensetDelivery) : Statement (.gsReplyDelivery d) := by intro _; rfl

theorem gsContactLost (g : GensetNo) (now : Contact) : Statement (.gsContactLost g now) := by intro _; rfl

theorem stepLimitExpiry (lane : LaneId) : Statement (.stepLimitExpiry lane) := by intro _; rfl

theorem readyWaitExpiry (lane : LaneId) : Statement (.readyWaitExpiry lane) := by intro _; rfl

theorem minRunExpiry (g : GensetNo) : Statement (.minRunExpiry g) := by intro _; rfl

theorem restTimerExpiry (g : GensetNo) : Statement (.restTimerExpiry g) := by intro _; rfl

theorem stopDelayExpiry : Statement .stopDelayExpiry := by intro _; rfl

theorem phaseLimitExpiry (g : GensetNo) : Statement (.phaseLimitExpiry g) := by intro _; rfl

theorem coolDownExpiry (g : GensetNo) : Statement (.coolDownExpiry g) := by intro _; rfl

theorem gsIslandState (entered : IslandState) : Statement (.gsIslandState entered) := by intro _; rfl

theorem cuBalanceUpdate : Statement .cuBalanceUpdate := by intro _; rfl

theorem cuReplyDelivery (d : ArrayDelivery) : Statement (.cuReplyDelivery d) := by intro _; rfl

theorem cuContactLost (a : ArrayNo) (now : Contact) : Statement (.cuContactLost a now) := by intro _; rfl

theorem sharePeriodExpiry : Statement .sharePeriodExpiry := by intro _; rfl

theorem raiseClaimAnswer (raised : List ArrayNo) : Statement (.raiseClaimAnswer raised) := by intro _; rfl

theorem releaseDelayExpiry : Statement .releaseDelayExpiry := by intro _; rfl

theorem releaseClaimAnswer (whole : Bool) (raised : List ArrayNo) : Statement (.releaseClaimAnswer whole raised) := by intro _; rfl

theorem holdQuantum (a : ArrayNo) : Statement (.holdQuantum a) := by intro _; rfl

theorem holdLapse (a : ArrayNo) : Statement (.holdLapse a) := by intro _; rfl

theorem cuRunEntry (left : IslandState) : Statement (.cuRunEntry left) := by intro _; rfl

theorem cuDarkEntry : Statement .cuDarkEntry := by intro _; rfl

theorem cuRestoreEntry : Statement .cuRestoreEntry := by intro _; rfl

theorem flcIslandState (entered : IslandState) : Statement (.flcIslandState entered) := by intro _; rfl

theorem orderPlacement (p : Placement) : Statement (.orderPlacement p) := by intro _; rfl

theorem orderWithdrawal (w : Withdrawal) : Statement (.orderWithdrawal w) := by intro _; rfl

theorem gapExpiry : Statement .gapExpiry := by intro _; rfl

theorem frameSent : Statement .frameSent := by intro _; rfl

theorem replyStart : Statement .replyStart := by intro _; rfl

theorem replyReceived (chars : List Byte) : Statement (.replyReceived chars) := by intro _; rfl

theorem receptionTimeout : Statement .receptionTimeout := by intro _; rfl

theorem replyWindowExpiry : Statement .replyWindowExpiry := by intro _; rfl

theorem noticeRaise (n : Notice) : Statement (.noticeRaise n) := by intro _; rfl

theorem shedListCandidateNamed (h : Handle) : Statement (.shedListCandidateNamed h) := by intro _; rfl

theorem resetEnd : Statement .resetEnd := by intro _; rfl

theorem transactionBegin : Statement .transactionBegin := by intro _; rfl

end Sys2Proof.Laws.Carries
end

