-- ==== Sys2Proof/Safety.lean ====
section
/-! DEFINITION. What every step keeps: the settings stay in their ranges, the configuration lists keep their form, and each
list of permits holds exactly the permits in its state (R32, R35, R67, R150, R151, R162, R189); a feeder has one permit (R19),
the lanes, the Start Queue and the sync token stay consistent (R85, R88, R91), the Urgent List names the urgent slots
(R169), and an order is of a kind that its owner places (07 section 7.4). And the words in which the statements are written. -/

namespace Sys2Proof.Machine

/-- Every setting lies in the range that 08 section 8.6 gives it (R189, R191). -/
def State.settingsInRange (s : State) : Prop := ∀ st : Setting, st.inRange (s.setting st) = true

/-- The configuration lists have the form their commands leave (R150, R151, R162): at most 48 poll entries and none more
than four times, a Lead Order that names no genset twice, at most 24 Restore List entries for different feeders. -/
def State.listsFormed (s : State) : Prop :=
  (s.flc.pollList.length ≤ 48 ∧ ∀ u, s.flc.pollList.count u ≤ 4)
    ∧ s.ic.leadOrder.Nodup
    ∧ (s.ic.restoreList.length ≤ 24 ∧ (s.ic.restoreList.map RestoreEntry.feeder).Nodup)

/-- A list of slots holds exactly the permits in a state, none twice. -/
def State.holdsExactly (s : State) (l : List Slot) (st : PermitState) : Prop :=
  l.Nodup ∧ ∀ i : Slot, i ∈ l ↔ (s.permit i).state = st

/-- The Wait Queue holds exactly the permits in QUEUED (R32), the Release List those in STAGING (R35) and the Shed List
those in SHED (R67). -/
def State.listsExact (s : State) : Prop :=
  s.holdsExactly s.ae.waitQueue .queued
    ∧ s.holdsExactly s.ae.releaseList .staging
    ∧ s.holdsExactly s.se.shedList .shed

/-- The Wait Queue stands by class, then arrival number, then slot (R20, R32), and the Shed List by class, then shed time, then
feeder number (R67). -/
def State.listsOrdered (s : State) : Prop :=
  let feeder (p : Permit) : Nat := p.feederNo?.elim 24 Fin.val
  s.ae.waitQueue.Pairwise (fun i j =>
      (s.permit i).cls < (s.permit j).cls ∨ (s.permit i).cls = (s.permit j).cls
        ∧ ((s.permit i).arrival < (s.permit j).arrival ∨ (s.permit i).arrival = (s.permit j).arrival ∧ i < j))
    ∧ s.se.shedList.Pairwise fun i j =>
      (s.permit i).cls < (s.permit j).cls ∨ (s.permit i).cls = (s.permit j).cls
        ∧ ((s.permit i).shedAt < (s.permit j).shedAt
          ∨ (s.permit i).shedAt = (s.permit j).shedAt ∧ feeder (s.permit i) ≤ feeder (s.permit j))

/-- What every step keeps. -/
def State.sound (s : State) : Prop := s.settingsInRange ∧ s.listsFormed ∧ s.listsExact

/-- A feeder's permit that is not FREE is the one its Feeder Table record names, so a feeder has at most one, and a record names
none but such a permit of its own feeder (R19, R50); the Wait Queue holds at most 16 permits (R32), at most 8 permits are
reservations (R27), and a need lies in 1 to 16,000 kW (R12). -/
def State.permitsSingle (s : State) : Prop :=
  (∀ (i : Slot) (f : FeederNo), (s.permit i).state ≠ .free → (s.permit i).holder = some (.feeder f) →
      (s.feeder f).permit = some ⟨i.val, (s.permit i).gen⟩)
    ∧ (∀ f : FeederNo, (s.feeder f).permit = none ∨ ∃ i : Slot, (s.feeder f).permit = some ⟨i.val, (s.permit i).gen⟩
        ∧ (s.permit i).state ≠ .free ∧ (s.permit i).holder = some (.feeder f))
    ∧ s.ae.waitQueue.length ≤ 16 ∧ s.reservations ≤ 8
    ∧ ∀ kw, s.needs.ae = some kw ∨ s.needs.ic = some kw → 1 ≤ kw ∧ kw ≤ 16000

/-- No genset is in both lanes, and the sync token has at most one holder (R88, R91); no genset is queued twice, and a queued
one is defined and OFF (R85); a genset in a lane is STARTING or ONLINE, and a STARTING one is in a lane (R88). -/
def State.lanesConsistent (s : State) : Prop :=
  (∀ a b, s.gs.laneA = some a → s.gs.laneB = some b → a.genset ≠ b.genset ∧ ¬ (a.token = true ∧ b.token = true))
    ∧ (s.gs.queue.map QueueEntry.genset).Nodup
    ∧ (∀ e ∈ s.gs.queue, (s.genset e.genset).state = .off ∧ (s.genset e.genset).profile ≠ none)
    ∧ (∀ l q, s.run l = some q → (s.genset q.genset).state = .starting ∨ (s.genset q.genset).state = .online)
    ∧ ∀ g, (s.genset g).state = .starting → ∃ l q, s.run l = some q ∧ q.genset = g

/-- The Urgent List names exactly the addresses whose slots hold an urgent order, none twice (R169). -/
def State.urgentExact (s : State) : Prop :=
  s.flc.urgent.Nodup ∧ ∀ u, u ∈ s.flc.urgent ↔ (s.entry u).slot.any (·.urgent) = true

/-- The block that places an order, by its kind (07 section 7.4). -/
def ownerOf : Order → Block
  | .grant _ _ _ | .wait _ _ | .deny _ _ => .ae
  | .open_ _ => .se
  | .crank | .sync | .close | .deadclose | .ramp _ | .unload | .openBreaker | .stop => .gs
  | .hold _ _ | .release => .cu

/-- Every order in a slot, and every one on its way to a slot, is of a kind that its owner places (07 section 7.4): so an order of
the AE is a GRANT, a WAIT or a DENY, and an OPEN is the SE's (R26, R59). -/
def State.ordersOwned (s : State) : Prop :=
  (∀ u o, (s.entry u).slot = some o → o.owner = ownerOf o.order)
    ∧ ∀ p, .orderPlacement p ∈ s.events ∨ .orderPlacement p ∈ s.pending → p.owner = ownerOf p.order

/-! ## Words for the statements -/

/-- The state with the reply DONE of a station command held and READY high (R180, R183). -/
def State.replied (s : State) (code : Byte) (payload : List Byte) : State :=
  { s with sp := { s.sp with held := { status := .done, echo := code, payload := payload }, executing := none } }

/-- The state with the reply REFUSED of a station command held and READY high (R180, R183). -/
def State.repliedRefused (s : State) (code : Byte) (r : Reason) : State :=
  { s with sp := { s.sp with held := { status := .refused, echo := code, payload := [reasonCode r] }, executing := none } }

/-- Only the Admission Engine's and the Shed Engine's records, the Need Register and the tellings may differ. -/
def State.onlyAdmission (s t : State) : Prop := t = { s with events := t.events, needs := t.needs, ae := t.ae, se := t.se }

/-- Only the Genset Sequencer's records and the tellings may differ. -/
def State.onlySequencer (s t : State) : Prop := t = { s with events := t.events, gs := t.gs }

/-- Only the Curtailment Unit's records and the tellings may differ. -/
def State.onlyCurtailment (s t : State) : Prop := t = { s with events := t.events, cu := t.cu }

/-- Only the island record, the Need Register and the tellings may differ. -/
def State.onlyIsland (s t : State) : Prop := t = { s with events := t.events, needs := t.needs, ic := t.ic }

/-- Only the Field Loop Controller's records and the tellings may differ. -/
def State.onlyLoop (s t : State) : Prop := t = { s with events := t.events, flc := t.flc }

/-- The permits of all slots but one are as they were. -/
def State.otherPermits (s t : State) (i : Slot) : Prop := ∀ j : Slot, j ≠ i → t.permit j = s.permit j

/-- A genset that is in no lane and not in the Start Queue. -/
def State.outside (s : State) (g : GensetNo) : Prop := s.laneOf g = none ∧ s.queued g = false

/-- No lane is free to take a genset from the Start Queue: both are taken, or starts are not served now (R87). -/
def State.noLaneFree (s : State) : Prop := s.starts = false ∨ (s.gs.laneA.isSome = true ∧ s.gs.laneB.isSome = true)

/-- An array reads as `r` but for its target, its ordered cap and the mark of a lowering, which working out targets may
write (R122, R127, log 51). -/
def State.arrayIs (t : State) (a : ArrayNo) (r : ArrayRecord) : Prop :=
  t.array a = { r with target := (t.array a).target, ordered := (t.array a).ordered, lowered := (t.array a).lowered }

/-- An array keeps every field but those three. -/
def State.sameArray (s t : State) (a : ArrayNo) : Prop := t.arrayIs a (s.array a)

/-- Every target is the one that the CU's state calls for (R122). -/
def State.targeted (s : State) : Prop := ∀ a, (s.array a).target = s.targetOf a

/-- A placement by the CU is on its way to the FLC, and the ordered cap is what it orders (R127, R129). -/
def State.orderedBy (t : State) (a : ArrayNo) (o : Order) (cap : Cap) (urgent : Bool) : Prop :=
  (t.array a).ordered = some cap
    ∧ .orderPlacement { target := .array a, order := o, owner := .cu, urgent := urgent } ∈ t.events

/-- `t` is `s` one millisecond later: every timer that runs counts down by one, and the tellings are those of the moments that
have come (R104, R34, R68; log 2, log 3). -/
def State.millisecondLater (s t : State) : Prop :=
  let down (x : Timer) : Timer := x.map (· - 1)
  t = { s with
      events := t.events, clock := s.clock + 1
      ae := { s.ae with permits := t.ae.permits, stepGuard := down s.ae.stepGuard }
      gs := { s.gs with
        gensets := t.gs.gensets, laneA := t.gs.laneA, laneB := t.gs.laneB, stopDelay := down s.gs.stopDelay }
      cu := { s.cu with
        arrays := t.cu.arrays, sharePeriod := s.cu.sharePeriod - 1, releaseDelay := down s.cu.releaseDelay }
      ic := { s.ic with
        deadConfirm := down s.ic.deadConfirm, liveConfirm := down s.ic.liveConfirm, holdoff := down s.ic.holdoff
        settle := down s.ic.settle }
      flc := { s.flc with loop := t.flc.loop } }
    ∧ (∀ i, let p := s.permit i
        t.permit i = { p with
          waitDeadline := down p.waitDeadline, revokeDeadline := down p.revokeDeadline, expiryLeft := down p.expiryLeft })
    ∧ (∀ g, let r := s.genset g
        t.genset g = { r with
          minRun := down r.minRun, coolDown := down r.coolDown, phaseLimit := down r.phaseLimit, rest := down r.rest })
    ∧ (∀ l, t.run l = (s.run l).map fun q =>
        { q with stepTimer := down q.stepTimer, readyWait := down q.readyWait })
    ∧ (∀ a, let r := s.array a
        (∀ h, r.state = .held h → t.array a = { r with state := .held { h with quantum := h.quantum - 1 } })
        ∧ (r.isHeld = false → t.array a = r))
    ∧ (∀ turn w, s.flc.loop = .awaiting turn w → t.flc.loop = .awaiting turn (w - 1))
    ∧ (∀ w, s.flc.loop = .gap w → t.flc.loop = .gap (w - 1))
    ∧ ((∀ turn w, s.flc.loop ≠ .awaiting turn w) → (∀ w, s.flc.loop ≠ .gap w) → t.flc.loop = s.flc.loop)
    ∧ (∀ g, (s.genset g).minRun = some 1 → .minRunExpiry g ∈ t.events)
    ∧ (∀ i l, s.ae.waitQueue = i :: l → s.clock + 1 - (s.permit i).queuedAt = s.setting .startDemandDelay * 1000 →
        .startDemandDelay ∈ t.events)
    ∧ ∀ i, (s.permit i).state = .shed → s.clock + 1 - (s.permit i).shedAt = s.setting .minimumOffTime * 1000 →
        .minimumOffTime i ∈ t.events

/-- The tellings `l` that follow a posting, which took the part from `s` to `t`: each watcher is told at most once, exactly
where its figure moved (R14), and SHORTFALL is raised on a crossing below 0 in RUN and RESTORE (R16). -/
def balanceTold (s t : State) (l : List Instr) : Prop :=
  l.Nodup
    ∧ (.aeBalanceUpdate ∈ l ↔ s.headroom < t.headroom)
    ∧ (.seBalanceUpdate ∈ l ↔ s.headroom ≠ t.headroom)
    ∧ (.gsBalanceUpdate ∈ l ↔ s.headroom ≠ t.headroom ∨ s.capacityWanted ≠ t.capacityWanted)
    ∧ (.cuBalanceUpdate ∈ l ↔ s.ceiling ≠ t.ceiling)
    ∧ (.icHeadroomRise ∈ l ↔ t.needs.ic ≠ none ∧ s.headroom < t.headroom)
    ∧ (.noticeRaise .shortfall ∈ l ↔ t.active = true ∧ 0 ≤ s.headroom ∧ t.headroom < 0)
    ∧ ∀ e ∈ l, e ∈ [.aeBalanceUpdate, .seBalanceUpdate, .gsBalanceUpdate, .cuBalanceUpdate, .icHeadroomRise,
        Instr.noticeRaise .shortfall]

/-- The payload of a LOOK UP holds these bytes from an offset on (R186, 09 section 9.5). -/
def State.shows (s : State) (kind index offset : Nat) (bytes : List Byte) : Prop :=
  ∃ l, s.lookUp kind index = some l ∧ (l.drop offset).take bytes.length = bytes

/-- An urgent OPEN of the SE is on its way to a feeder's slot, for the permit whose revocation it is, or for none (R59,
R71). -/
def State.opens (t : State) (f : FeederNo) (h : Option Handle) : Prop :=
  .orderPlacement { target := .feeder f, order := .open_ h, owner := .se, urgent := true } ∈ t.events

/-- The permit in a slot, which was feeder `f`'s in `s`, is REVOKING in `t` for a reason, its deadline started and its OPEN
placed (R59). -/
def State.revokingFor (s t : State) (i : Slot) (f : FeederNo) (reason : RevokeReason) : Prop :=
  (t.permit i).state = .revoking ∧ (t.permit i).revokeReason = some reason
    ∧ (t.permit i).revokeDeadline = some (s.setting .revokeLimit * 1000) ∧ (t.permit i).requested = (s.permit i).requested
    ∧ t.opens f (some ⟨i.val, (s.permit i).gen⟩)

/-- A placement by the GS is on its way to a genset's slot. -/
def State.ordersGenset (t : State) (g : GensetNo) (o : Order) (urgent : Bool) : Prop :=
  .orderPlacement { target := .genset g, order := o, owner := .gs, urgent := urgent } ∈ t.events

/-- Lane `l` has taken genset `g`, whose record was `r`, from the Start Queue: STARTING at the beginning of its run, and HELD, as
its last report is without READY (R84, R87, R89). -/
def State.takenHeld (s t : State) (l : LaneId) (g : GensetNo) (o : Origin) (r : Genset) : Prop :=
  t.genset g = { r with state := .starting, pointer := r.runStart o }
    ∧ t.run l = some { genset := g, origin := o, state := .held, readyWait := some (s.setting .readyWait * 1000) }

/-- The AE need with a start demand delay of so many seconds (R34): the Wait Queue head's requested kW once it has waited that
long, none before and with no head; a figure that no entry may hold leaves the need as it stands (R12, log 52). -/
def State.needAt (s : State) (delay : Nat) : Option Kw :=
  match s.ae.waitQueue with
  | [] => none
  | i :: _ =>
    let kw := (s.permit i).requested
    if s.clock - (s.permit i).queuedAt < delay * 1000 then none
    else if 1 ≤ kw ∧ kw ≤ 16000 then some kw else s.needs.ae

/-- The record of a genset that is not ONLINE after its run failed for a cause that counts (R96): one attempt more, FAILED where
that reaches the maximum, and else OFF with its rest timer started and its STOP owed (log 69). -/
def State.failedRecord (s : State) (r : Genset) (cause : FailCause) : Genset :=
  let used := min 4 (r.attempts + 1)
  if r.maxAttempts ≤ used then
    { r with attempts := used, state := .failed, minRun := none, cause := some cause, stopOwed := false }
  else { r with
    attempts := used, state := .off, minRun := none, rest := some (s.setting .restAfterFailure * 1000), cause := some cause
    stopOwed := true }

/-- Attempts used after one more that may not pass the maximum (R97, R99). -/
def Genset.attemptsCapped (r : Genset) : Nat := if r.attempts < r.maxAttempts then r.attempts + 1 else r.attempts

/-- Nothing can leave the Start Queue for a lane now: the queue is empty, both lanes are taken, or starts are not served
(R87). -/
def State.queueRests (s : State) : Prop := s.noLaneFree ∨ s.gs.queue = []

/-- The stop condition of R104 with `g` for candidate, but for the comparison of the merit numbers: ONLINE, its min-run timer run
out, another genset ONLINE beside it, and enough headroom without it. -/
def State.mayStop (s : State) (g : GensetNo) : Prop :=
  s.setting .autoStop = 1 ∧ s.ic.state = .run ∧ (∃ k, k ≠ g ∧ (s.genset k).state = .online) ∧ s.capacityWanted = 0
    ∧ s.gs.queue = [] ∧ s.gs.laneA = none ∧ s.gs.laneB = none ∧ (∀ k, (s.genset k).state ≠ .stopping)
    ∧ (s.genset g).state = .online ∧ (s.genset g).minRun = some 0
    ∧ (s.setting .stopLevel : Int) ≤ s.headroom - (s.genset g).rated

/-- `t` has the stop delay as a judgement of the stop condition leaves the one of `s` (R104): idle with no candidate where the
condition fails; for the candidate it holds for, kept where it runs for that candidate, and else started (log 57). -/
def State.stopJudged (s t : State) : Prop :=
  (t.stopHolds = none → t.gs.stopDelay = none ∧ t.gs.stopCandidate = none)
    ∧ ∀ g, t.stopHolds = some g → t.gs.stopCandidate = some g ∧ t.gs.stopDelay =
      if s.gs.stopDelay ≠ none ∧ s.gs.stopCandidate = some g then s.gs.stopDelay else some (s.setting .stopDelay * 1000)

/-- `t` has the release delay as a judgement of the release condition leaves the one of `s` (R125): in ENGAGED and DISENGAGING, in
RUN and RESTORE, idle where the condition fails, and where it holds kept if it runs and else started; it stays elsewhere. -/
def State.releaseJudged (s t : State) : Prop :=
  let judged : Prop := (t.cu.state = .engaged ∨ t.cu.state = .disengaging) ∧ t.active = true
  (judged → t.releaseHolds = false → t.cu.releaseDelay = none)
    ∧ (judged → t.releaseHolds = true → t.cu.releaseDelay =
        if s.cu.releaseDelay = none then some (s.setting .releaseDelay * 1000) else s.cu.releaseDelay)
    ∧ (¬ judged → t.cu.releaseDelay = s.cu.releaseDelay)

/-- `t` is `s` after an event that may have changed the exposure (R124): in WATCH, in RUN and RESTORE, a changed exposure engages
where the test holds, with the notice and release judged (R125), and otherwise the CU state stays. -/
def State.engagedBy (s t : State) : Prop :=
  let engages : Prop := s.cu.state = .watch ∧ s.active = true ∧ t.exposure ≠ s.exposure ∧ t.engages = true
  (engages → t.cu.state = .engaged ∧ .noticeRaise .curtailEngaged ∈ t.events ∧ s.releaseJudged t)
    ∧ (¬ engages → t.cu.state = s.cu.state)

/-- The order that engagement's end leaves an array with (R126): a RELEASE where its level is its nameplate kW, no new order
where it is at its level already, and else a HOLD at the level; none placed where the CU may not order it. -/
def State.releasedTo (s t : State) (a : ArrayNo) : Prop :=
  let r := s.array a
  let level := min (if s.cu.state = .disengaging then r.nameplate else min r.nameplate (s.share a).limit) r.exposure
  (s.mayOrder a = true → r.state ≠ .lapsed →
      (level = r.nameplate → t.orderedBy a .release .unheld false)
      ∧ (level ≠ r.nameplate → level ≠ r.currentLevel →
          t.orderedBy a (.hold level (s.setting .holdLength)) (.kw level) false)
      ∧ (level ≠ r.nameplate → level = r.currentLevel → (t.array a).ordered = r.ordered))
    ∧ (s.mayOrder a = false → (t.array a).ordered = r.ordered)

/-- `t` is `s` after the entry into DARK (R143): the walk, stand-down, the Adoption Set, the lead and the decision are gone,
the IC need is cleared, the holdoff starts where the held bus is DEAD, and every block is told. -/
def State.darkEntered (s t : State) : Prop :=
  t.ic = { s.ic with
      state := .dark, walkPhase := none, walkPermit := none, settle := none, walkPointer := 0, standDown := false
      complete := false, adoptionSet := [], leadIndex := 0, lead := none, decision := none
      holdoff := if s.ic.heldLive then s.ic.holdoff else some (s.setting .restartHoldoff * 1000) }
    ∧ t.needs = { s.needs with ic := none } ∧ s.onlyIsland t
    ∧ ∀ e ∈ [Instr.noticeRaise .islandState, .raIslandState s.ic.state .dark, .aeDarkEntry, .seDarkEntry,
        .gsIslandState .dark, .cuDarkEntry, .flcIslandState .dark], e ∈ t.events

/-- `t` is `s` after the entry into RUN at the end of the walk (R157). -/
def State.runEntered (s t : State) : Prop :=
  t.ic = { s.ic with
      state := .run, walkPhase := none, walkPermit := none, settle := none, walkPointer := 0, rounds := 0 }
    ∧ t.needs = { s.needs with ic := none } ∧ s.onlyIsland t
    ∧ ∀ e ∈ [Instr.noticeRaise .islandState, .raIslandState s.ic.state .run, .seIslandState .run, .gsIslandState .run,
        .cuRunEntry s.ic.state, .flcIslandState .run], e ∈ t.events

/-- `t` is `s` after the entry into RESTART with the first lead `g` (R147). -/
def State.restartEntered (s : State) (g : GensetNo) (t : State) : Prop :=
  t.ic = { s.ic with state := .restart, leadIndex := 0, lead := some g, holdoff := none, decision := none }
    ∧ t.needs = s.needs ∧ s.onlyIsland t
    ∧ ∀ e ∈ [Instr.noticeRaise .islandState, .raIslandState s.ic.state .restart, .seIslandState .restart,
        .gsIslandState .restart, .flcIslandState .restart, .leadStartRequest g], e ∈ t.events

/-- `t` has the Start Queue of `s` after a judgement of demand (R86), no lane taking from it: eligible gensets are appended in
order of merit while what is covered is below what is wanted, and no further; the last DEMAND entries are taken off while what
is left still covers it; every DEMAND entry goes where nothing is wanted; where starts are not served it stays. -/
def State.demandJudged (s t : State) : Prop :=
  let rated (l : List GensetNo) : Kw := sumOver (fun g => (s.genset g).rated) l
  let demands := s.gs.queue.filter fun e => e.origin == .demand
  let last (k : Nat) : List QueueEntry := demands.drop (demands.length - k)
  (s.starts = false → t.gs.queue = s.gs.queue)
    ∧ (s.starts = true → s.covered < s.capacityWanted → ∃ k, k ≤ s.eligibles.length
        ∧ t.gs.queue = s.gs.queue ++ (s.eligibles.take k).map (fun g => { genset := g, origin := .demand })
        ∧ (∀ j < k, s.covered + rated (s.eligibles.take j) < s.capacityWanted)
        ∧ (s.capacityWanted ≤ s.covered + rated (s.eligibles.take k) ∨ k = s.eligibles.length))
    ∧ (s.starts = true → 0 < s.capacityWanted → s.capacityWanted ≤ s.covered →
        (s.gs.queue.map QueueEntry.genset).Nodup → ∃ k, k ≤ demands.length
        ∧ t.gs.queue = s.gs.queue.filter (fun e => !(last k).contains e)
        ∧ (∀ j ≤ k, s.capacityWanted + rated ((last j).map QueueEntry.genset) ≤ s.covered)
        ∧ (k = demands.length ∨ s.covered < s.capacityWanted + rated ((last (k + 1)).map QueueEntry.genset)))
    ∧ (s.starts = true → s.capacityWanted = 0 → t.gs.queue = s.gs.queue.filter fun e => e.origin != .demand)

/-- The kW that the walk asks for an entry (R151). -/
def State.asked (s : State) (e : RestoreEntry) : Kw := if e.pickup = 0 then (s.feeder e.feeder).pickup else e.pickup

/-- An entry that the walk passes over (R153): locked out, no address or out of contact, or nothing to ask for. -/
def State.passedOver (s : State) (e : RestoreEntry) : Prop :=
  (s.feeder e.feeder).lockout = true ∨ s.contactOf (.feeder e.feeder) ≠ .inContact ∨ s.asked e = 0

/-- An entry for which the walk asks a permit: not passed over, and with no permit yet (R153). -/
def State.walkable (s : State) (e : RestoreEntry) : Prop := ¬ s.passedOver e ∧ s.permitOf e.feeder = none

/-- `t` is `s` after the walk has advanced (R152, R153): past the last entry the island enters RUN; at an entry that may be
walked its permit is asked for. -/
def State.walkAdvanced (s t : State) : Prop :=
  let next := s.ic.walkPointer + 1
  s.onlyIsland t ∧ (t.ic.state = s.ic.state ∨ t.ic.state = .run)
    ∧ (s.ic.restoreList[next]? = none → s.runEntered t)
    ∧ ∀ e, s.ic.restoreList[next]? = some e → s.walkable e →
        t.ic = { s.ic with walkPointer := next, walkPhase := some .next, walkPermit := none, settle := none }
          ∧ t.needs = s.needs ∧ .walkPermitRequest e.feeder (s.asked e) ∈ t.events

/-- The island record as RESTORE is entered, before the walk takes an entry (R152, R196): the skip marks, the foreign-live mark,
the decision and the lead are gone, and with the held bus DEAD the confirm timer of BUSLIVE's level starts. -/
def State.restoring (s : State) : Island :=
  { s.ic with
    state := .restore, restoreList := s.ic.restoreList.map (fun e => { e with skip := false }), walkPointer := 0
    walkPhase := some .next, walkPermit := none, settle := none, foreignLive := false, decision := none, lead := none
    liveConfirm :=
      if s.ic.heldLive = false ∧ s.pins.buslive = true then some (s.setting .liveBusConfirm * 100) else none
    deadConfirm :=
      if s.ic.heldLive = true then s.ic.deadConfirm
      else if s.pins.buslive = true then none else some (s.setting .deadBusConfirm * 100) }

/-- `t` is `s` after the entry into RESTORE (R152, R196): every block is told; an empty list ends the walk at once; else its
first entry is taken, unless the walk is paused. -/
def State.restoreEntered (s t : State) : Prop :=
  s.onlyIsland t ∧ (t.ic.state = .restore ∨ t.ic.state = .run)
    ∧ (∀ e ∈ [Instr.noticeRaise .islandState, .raIslandState s.ic.state .restore, .seIslandState .restore,
        .gsIslandState .restore, .cuRestoreEntry, .flcIslandState .restore], e ∈ t.events)
    ∧ (s.ic.restoreList = [] → State.runEntered { s with ic := s.restoring } t)
    ∧ (s.ic.restoreList ≠ [] → s.paused = true → t.ic = s.restoring ∧ t.needs = s.needs)
    ∧ ∀ e l, s.ic.restoreList = e :: l → s.paused = false → s.walkable e →
        t.ic = s.restoring ∧ t.needs = s.needs ∧ .walkPermitRequest e.feeder (s.asked e) ∈ t.events

/-- `t` is `s` after a live decision with these two answers (R149). -/
def State.decided (s : State) (lead adopted : Bool) (t : State) : Prop :=
  (s.ic.heldLive = false → State.darkEntered { s with ic := { s.ic with foreignLive := false } } t)
    ∧ (s.ic.heldLive = true → lead = true ∨ adopted = true → s.restoreEntered t)
    ∧ (s.ic.heldLive = true → lead = false → adopted = false → .noticeRaise .foreignLive ∈ t.events
        ∧ State.darkEntered { s with ic := { s.ic with
            foreignLive := true
            liveConfirm := if s.pins.buslive then some (s.setting .liveBusConfirm * 100) else s.ic.liveConfirm } } t)

/-- The loop of `t` is as a choice of the next turn leaves it, the cursor having stood at `cursor` (R164, R165): an urgent turn to
the head of the Urgent List, the cursor as it was; else a poll turn to the first entry from the cursor on that is not VACANT,
the cursor then at the entry behind it; else IDLE. The turn carries its address's slot. -/
def State.turnChosen (t : State) (cursor : Nat) : Prop :=
  let n := t.flc.pollList.length
  let begun (u : Addr) (urgent : Bool) : Loop := .sending
    { addr := u, urgent := urgent, sent := (t.entry u).slot, discard := false, baud := t.setting .baudRate }
    (turnFrame u (t.entry u).slot)
  (∀ u l, t.flc.urgent = u :: l → t.flc.loop = begun u true ∧ t.flc.cursor = cursor)
    ∧ (∀ k u, t.flc.urgent = [] → cursor < n → k < n →
        (∀ j < k, ∀ v, t.flc.pollList[(cursor + j) % n]? = some v → (t.entry v).bound = none) →
        t.flc.pollList[(cursor + k) % n]? = some u → (t.entry u).bound ≠ none →
        t.flc.loop = begun u false ∧ t.flc.cursor = (cursor + k + 1) % n)
    ∧ (t.flc.urgent = [] → cursor < n ∨ n = 0 → (∀ v ∈ t.flc.pollList, (t.entry v).bound = none) →
        t.flc.loop = .idle ∧ t.flc.cursor = cursor)

/-- `t` is `s` after a turn whose REPLY did not come or failed a test (R169, R170, R172, R174): the gap starts, the missed count
rises, the sent order still in the slot counts an attempt, and the contact state follows the count; at the missed limit the
unit is LOST with its slot emptied, and its blocks are told. -/
def State.missedBy (s : State) (turn : Turn) (r : UnitRec) (t : State) : Prop :=
  let u := turn.addr
  let e := s.entry u
  let missed := min 7 (e.missed + 1)
  let slot : Option SlotOrder := e.slot.map fun o =>
    if (turn.sent.any fun w => w.number == o.number) = true then { o with attempts := min 255 (o.attempts + 1) } else o
  let lost := e.contact ≠ .lost ∧ s.setting .missedLimit ≤ missed
  let urgent : Bool := e.slot.any (·.urgent)
  s.onlyLoop t ∧ t.flc.loop = .gap (s.setting .interFrameGap) ∧ t.flc.pollList = s.flc.pollList
    ∧ t.flc.cursor = s.flc.cursor ∧ (∀ v, v ≠ u → t.entry v = s.entry v)
    ∧ (¬ lost →
        t.entry u = { e with missed := missed, slot := slot, contact := if e.contact = .lost then .lost else .silent }
        ∧ t.flc.urgent = (if turn.urgent && urgent then (s.flc.urgent.filter fun a => a != u) ++ [u] else s.flc.urgent)
        ∧ (e.contact = .inContact ∨ e.contact = .unknown → ∀ i ∈ contactTellings r .silent, i ∈ t.events))
    ∧ (lost →
        t.entry u = { e with missed := missed, slot := none, contact := .lost }
        ∧ t.flc.urgent = (s.flc.urgent.filter fun a => a != u)
        ∧ (∀ i ∈ contactTellings r .lost, i ∈ t.events) ∧ .noticeRaise .unitLost ∈ t.events
        ∧ ∀ o, e.slot = some o → .supersessionNotice o.owner r o.order .emptied ∈ t.events)

/-- The record kinds of LOOK UP with their indices (09 section 9.5). -/
def recordExists (kind index : Nat) : Bool :=
  match kind with
  | 1 => decide (index < 32)
  | 2 => decide (index < 24)
  | 3 => decide (index < 6)
  | 4 => decide (index < 2)
  | 5 => decide (index < 128)
  | 6 => decide (index < 8)
  | 7 => decide (index < 16)
  | 8 => decide (1 ≤ index ∧ index ≤ 32)
  | 9 => decide (index = 0)
  | 10 => decide (index < 24)
  | 11 => decide (index < 6)
  | 12 => decide (index < 4)
  | _ => false

/-- Commands that act while the part is held in reset: the pins' and the resets' (R181, R193). -/
def actsInReset : Instr → Bool
  | .transactionEnd _ | .transactionBegin | .busyTransaction | .powerOnReset | .nreset | .resetEnd | .busliveChange _ => true
  | _ => false

end Sys2Proof.Machine
end

