-- ==== Sys2Proof/Certificates/Slice0/Obligations.lean ====
section
/-! DEFINITION. The statements for the provers, group by group: the queue and the invariant, the Station Port, the Reserve
Account, then one group per block. `s.took c` is the state with the telling `c` answered; `s.replied` and
`s.repliedRefused` hold a station command's reply; each new state is written out, and what it does not name is unchanged. -/

open Sys2Proof Sys2Proof.Machine

/-! ## The queue, the answers, the invariants -/

/-- A step takes the command at the front of the queue and runs it on the state with the queue's rest (log 2). -/
def Obligations.StepRunsTheFrontCommand : Prop :=
  ∀ (c : Instr) (rest : List Instr) (s : State), step { s with pending := c :: rest } = exec c { s with pending := rest }

/-- On an empty queue the part takes its oldest telling, else a timer that has run out, else a millisecond passes, in which every
timer that runs counts down by one; held in reset it waits (the model's choice: log 2, log 3). Every command answers a next
state, in every state, and leaves the queue of commands alone; while the part is held in reset only the pins and the resets
act, and every other command leaves it as it is (R181, R193, log 27). -/
def Obligations.EmptyQueueStepsAndEveryCommandAnswers : Prop :=
  (∀ s : State, s.pending = [] →
    (s.inReset = true → step s = .next s)
      ∧ (s.inReset = false → ∀ e es, s.events = e :: es → step s = exec e s)
      ∧ (s.inReset = false → s.events = [] → ∀ e es, s.due = e :: es → step s = exec e s)
      ∧ (s.inReset = false → s.events = [] → s.due = [] → ∃ t, step s = .next t ∧ s.millisecondLater t))
    ∧ ∀ (c : Instr) (s : State),
      (∃ t, exec c s = .next t ∧ t.pending = s.pending)
        ∧ (s.inReset = true → actsInReset c = false → exec c s = .next s)

/-- The state after reset meets every invariant: settings in range, configuration lists formed, permit lists exact and in order,
one permit to a feeder, the lanes, the Start Queue and the sync token consistent, the Urgent List exact, and each order with its
owner. It holds the values the manual gives: the defaults of the settings (08 section 8.6), the permit slots FREE with generation
1 (R49), the Feeder Table (R50), the Commitment Table (R73), the Program Store of ENDs with a limit of 0.1 s (R82, the argument
00h is log 35), the Array Table (R113), the share banks (R117), the CU (R119), the island record (R137), the Unit Directory (R159,
R177), the held reply of a NULL (R180), no notice (R184), and every figure of the account 0 (R18). What a queued command, a
telling or the clock holds is the model's (log 1, log 3), and so are the levels of the pins and with them the held bus (log 12).
-/
def Obligations.ResetStateIsSound : Prop :=
  let s := State.reset
  (s.sound ∧ s.listsOrdered ∧ s.permitsSingle ∧ s.lanesConsistent ∧ s.urgentExact ∧ s.ordersOwned)
    ∧ (s.pending = [] ∧ s.events = [] ∧ s.clock = 0 ∧ s.inReset = false)
    ∧ (∀ st, s.setting st = match st with
        | .missedLimit => 3 | .replyWindow => 20 | .interFrameGap => 2 | .baudRate => 19200 | .baseReserve => 0
        | .cloudFactor => 50 | .floorMargin => 0 | .startLevel => 0 | .startDemandDelay => 10 | .autoStop => 0
        | .stopLevel => 0 | .stopDelay => 300 | .restAfterFailure => 30 | .readyWait => 60 | .stepGuard => 20
        | .defaultWaitLimit => 120 | .restoreMargin => 0 | .minimumOffTime => 30 | .revokeLimit => 5
        | .overdrawTolerance => 10 | .deadBusConfirm => 20 | .liveBusConfirm => 20 | .restartHoldoff => 30
        | .autoRestart => 0 | .restartRounds => 2 | .holdLength => 40 | .engageLevel => 0 | .releaseLevel => 0
        | .releaseDelay => 60 | .sharePeriod => 5)
    ∧ (s.sp.held = { status := .done, echo := 0x00, payload := [] } ∧ s.sp.executing = none ∧ s.sp.transaction = none
        ∧ (∀ n, s.flagged n = false) ∧ s.ready = true ∧ s.attnLow = false ∧ s.lde = false)
    ∧ ((∀ i, (s.permit i).state = .free ∧ (s.permit i).gen = 1) ∧ s.ae.waitQueue = [] ∧ s.ae.releaseList = []
        ∧ s.ae.stepGuard = none ∧ s.ae.inFlight = none ∧ s.ae.arrivals = 0 ∧ s.needs.ae = none ∧ s.needs.ic = none)
    ∧ ((∀ f, s.feeder f = { addr := none, cls := 3, pickup := 0, lockout := false, shedSeconds := 0, breaker := .unknown,
                            isLocal := false, permit := none, unconfirmed := none })
        ∧ s.se.shedList = [] ∧ s.se.state = .idle ∧ s.se.naming = none)
    ∧ ((∀ g, let r := s.genset g
          r.addr = none ∧ r.profile = none ∧ r.state = .unknown ∧ r.pointer.val = 0 ∧ r.attempts = 0 ∧ r.phase = none
            ∧ r.minRun = none ∧ r.coolDown = none ∧ r.rest = none ∧ r.report.output = 0
            ∧ [r.report.running, r.report.voltsOk, r.report.warm, r.report.ready, r.report.synced, r.report.closed,
                r.report.tripped] = List.replicate 7 false)
        ∧ (∀ k : Fin 128, s.gs.store[k].kind = .end_ ∧ s.gs.store[k].limit = 1)
        ∧ s.gs.laneA = none ∧ s.gs.laneB = none ∧ s.gs.queue = [] ∧ s.gs.stopDelay = none ∧ s.gs.stopCandidate = none)
    ∧ ((∀ a, let r := s.array a
          r.addr = none ∧ r.definition = none ∧ r.state = .unheld ∧ r.target = none ∧ r.ordered = none ∧ r.claimed = none
            ∧ r.refusal = false ∧ r.lastOutput = 0
            ∧ s.cu.bankA[a] = { weight := 0, limit := 16000, enabled := false }
            ∧ s.cu.bankB[a] = { weight := 0, limit := 16000, enabled := false })
        ∧ s.cu.current = .a ∧ s.cu.swapPending = false ∧ s.cu.state = .off ∧ s.cu.resumeState = none
        ∧ s.cu.sharePeriod = 5000 ∧ s.cu.releaseDelay = none ∧ s.cu.claim = none)
    ∧ s.ic = { state := .setup, heldLive := s.pins.buslive, deadConfirm := none, liveConfirm := none, holdoff := none,
               restoreList := [], walkPointer := 0, walkPhase := none, walkPermit := none, settle := none, leadOrder := [],
               leadIndex := 0, lead := none, rounds := 0, suspended := false, foreignLive := false, decision := none,
               standDown := false, complete := false, releaseQuiet := true, sequencerQuiet := true, adoptionSet := [] }
    ∧ ((∀ u, s.entry u = { bound := none, contact := .unknown, missed := 0, orderNo := 0, slot := none })
        ∧ s.flc.pollList = [] ∧ s.flc.cursor = 0 ∧ s.flc.urgent = [] ∧ s.flc.loop = .idle)
    ∧ s.onlineCapacity = 0 ∧ s.minimumLoad = 0 ∧ s.stepAcceptance = 0 ∧ s.chargedLoad = 0 ∧ s.measuredLoad = 0
    ∧ s.exposure = 0 ∧ s.reserveRequirement = 0 ∧ s.headroom = 0 ∧ s.ceiling = 0 ∧ s.capacityWanted = 0

/-- Every step keeps the state sound: the settings stay in their ranges (R189, R191), the configuration lists keep their form
(R150, R151, R162), and the Wait Queue, the Release List and the Shed List hold exactly the permits in QUEUED, STAGING and
SHED, none twice (R32, R35, R67). It keeps the Wait Queue in the order of class, arrival number and slot (R20, R32) and the
Shed List in the order of class, shed time and feeder number (R67). -/
def Obligations.StepKeepsListsExactAndSettingsInRange : Prop :=
  ∀ s t : State, s.sound → step s = .next t → t.sound ∧ (s.listsOrdered → t.listsOrdered)

/-- Every step keeps each feeder to one permit, the one that its Feeder Table record names, and each record naming a permit of its
own feeder or none (R19, R50), the Wait Queue to 16 permits (R32), the reservations to 8 (R27), and each need within 1 to 16,000
kW (R12, log 52). The state is taken to be sound, which every step keeps (the statement before this one): a list that named a
FREE slot would bring a permit that no record names. -/
def Obligations.StepKeepsEachFeederToOnePermit : Prop :=
  ∀ s t : State, s.sound → s.permitsSingle → step s = .next t → t.permitsSingle

/-- Every step keeps the two lanes on different gensets and the sync token with at most one of them (R88, R91), the Start Queue
free of repetition with each of its gensets defined and OFF (R85), and the gensets of the lanes STARTING or ONLINE, each
STARTING one in a lane (R88). -/
def Obligations.StepKeepsLanesQueueAndTokenConsistent : Prop :=
  ∀ s t : State, s.lanesConsistent → step s = .next t → t.lanesConsistent

/-- Every step keeps the Urgent List to exactly the addresses whose slots hold an urgent order, none twice (R169). Where every
order in a slot, on its way to one or in a queued placement is of a kind that its owner places, GRANT, WAIT and DENY the AE's,
OPEN the SE's, HOLD and RELEASE the CU's and the rest the GS's (07 section 7.4), it keeps that too. -/
def Obligations.StepKeepsTheUrgentListExact : Prop :=
  ∀ s t : State, step s = .next t → (s.urgentExact → t.urgentExact) ∧ (s.ordersOwned → t.ordersOwned)

/-! ## Requests and frames -/

/-- Every station command is read back from the payload that carries it, which fits a frame, and what is no station command has no
code (09 section 9.6, R182); the CRCs that guard the frames give their check values over the digits 1 to 9 (R194, R195). -/
def Obligations.StationRequestsReadBackUnderTheirChecks : Prop :=
  (∀ i : Instr, Sys2Proof.Laws.Carries.Statement i)
    ∧ crc8 [0x31, 0x32, 0x33, 0x34, 0x35, 0x36, 0x37, 0x38, 0x39] = 0xF4
    ∧ crc16 [0x31, 0x32, 0x33, 0x34, 0x35, 0x36, 0x37, 0x38, 0x39] = 0x29B1

/-- CS falls: the transaction that begins shifts out the held reply while READY is high, and BUSY with the code of the request
in execution while READY is low; with CS low already nothing begins (R179, R181, log 34). While the part is held in reset the
edges move the level of CS alone (R193, log 27). CS rises: a complete transaction that is not busy, with the request frame of a
station command, hands that command to execution, READY low (R180, R182, R183); a short or a busy one takes no request, and one
whose request fails the length, the check, the code or the format test is answered with that test's status at once, its code
echoed (R182). At the rise MISO goes to high impedance (R179). Nothing else changes. -/
def Obligations.TransactionsBeginHandOverOrRefuse : Prop :=
  (∀ (s : State) (c : Instr), c = .transactionBegin ∨ c = .busyTransaction → s.inReset = false →
      (s.pins.csLow = true → exec c s = .next (s.took c))
        ∧ (s.pins.csLow = false → s.sp.executing = none → exec c s = .next
            { s.took c with
              pins := { s.pins with csLow := true }
              sp := { s.sp with transaction := some { busy := false, frame := replyFrame s.sp.held } } })
        ∧ (∀ code, s.pins.csLow = false → s.sp.executing = some code → exec c s = .next
            { s.took c with
              pins := { s.pins with csLow := true }
              sp := { s.sp with
                transaction := some { busy := true, frame := replyFrame { status := .busy, echo := code, payload := [] } } } }))
    ∧ (∀ (s : State) (c : Instr) (low : Bool), s.inReset = true →
      (c = .transactionBegin ∨ c = .busyTransaction) ∧ low = true ∨ (∃ mosi, c = .transactionEnd mosi) ∧ low = false →
      exec c s = .next { s.took c with pins := { s.pins with csLow := low } })
    ∧ (∀ (s : State) (i : Instr) (p x : List Byte), s.inReset = false → i.wellFormed = true → requestPayload i = some p →
      s.sp.transaction = some { busy := false, frame := x } →
      let mosi := requestFrame (requestCode i) p
      exec (.transactionEnd mosi) s = .next
        { s with
          pins := { s.pins with csLow := false }
          events := s.events.erase (.transactionEnd mosi) ++ [i]
          sp := { s.sp with
            transaction := none, shifted := x.take 64 ++ List.replicate (64 - (x.take 64).length) 0xFF
            executing := some (requestCode i) } })
    ∧ ∀ (s : State) (x mosi : List Byte) (busy : Bool), s.inReset = false →
      s.sp.transaction = some { busy := busy, frame := x } →
      let ended (p : Port) : State :=
        { s with
          pins := { s.pins with csLow := false }
          events := s.events.erase (.transactionEnd mosi)
          sp := { p with
            transaction := none
            shifted := x.take mosi.length ++ List.replicate (mosi.length - (x.take mosi.length).length) 0xFF } }
      let code := mosi.getD 0 0
      let len := (mosi.getD 1 0).toNat
      let answered (st : Status) : Port :=
        { s.sp with held := { status := st, echo := code, payload := [] }, executing := none }
      (∀ p k, (ended p).misoByte k = none)
        ∧ ((busy = true ∨ mosi.length < 64) → exec (.transactionEnd mosi) s = .next (ended s.sp))
        ∧ (busy = false → 64 ≤ mosi.length → 60 < len → exec (.transactionEnd mosi) s = .next (ended (answered .formatError)))
        ∧ (busy = false → 64 ≤ mosi.length → len ≤ 60 → crc8 (mosi.take (2 + len)) ≠ mosi.getD (2 + len) 0 →
            exec (.transactionEnd mosi) s = .next (ended (answered .checkError)))
        ∧ (busy = false → 64 ≤ mosi.length → len ≤ 60 → crc8 (mosi.take (2 + len)) = mosi.getD (2 + len) 0 →
            readRequest code ((mosi.drop 2).take len) = none →
            exec (.transactionEnd mosi) s = .next (ended (answered .unknownCommand)))
        ∧ (busy = false → 64 ≤ mosi.length → len ≤ 60 → crc8 (mosi.take (2 + len)) = mosi.getD (2 + len) 0 →
            readRequest code ((mosi.drop 2).take len) = some none →
            exec (.transactionEnd mosi) s = .next (ended (answered .formatError)))

/-! ## Resets and pins -/

/-- A power-on reset and nRESET put every record at its reset value and hold the part; the input pins and the queue are the
world's, READY is low and MISO at high impedance (R191, R193). At the end of a reset READY rises, the held bus is the level of
BUSLIVE, and a CS already low begins a transaction with the held reply; outside a reset its end does nothing (R137, R181,
R193, log 27). -/
def Obligations.ResetsHoldThePartAndReleaseIt : Prop :=
  ∀ s : State,
    let t : State := { State.reset with pending := s.pending, pins := s.pins, inReset := true }
    exec .powerOnReset s = .next t ∧ exec .nreset s = .next t ∧ t.ready = false ∧ (∀ k, t.misoByte k = none)
      ∧ (s.inReset = false → exec .resetEnd s = .next (s.took .resetEnd))
      ∧ (s.inReset = true → s.sp.executing = none → exec .resetEnd s = .next
          { s.took .resetEnd with
            inReset := false
            ic := { s.ic with heldLive := s.pins.buslive }
            sp := if s.pins.csLow then
              { s.sp with transaction := some { busy := false, frame := replyFrame s.sp.held } } else s.sp })

/-- SOFT RESET keeps the configuration (settings, programs, definitions, share banks and the current bank, bindings, poll list,
Restore List, Lead Order) and clears the live records; a genset is UNKNOWN, its pointer at step 0 of its primary slot, and no
timer of it runs; the island is in SETUP with the held bus at BUSLIVE's level (R49, R50, R73, R113, R119, R137, R159, R177,
R192; an array's target is absent until it is judged, log 60). A turn under way ends in GAP (R177), and a gap that runs already
goes on with the time it has left (log 82). The pointer of an undefined genset is at slot 0 (log 38). -/
def Obligations.SoftResetKeepsConfigurationClearsTheRest : Prop :=
  ∀ s : State, s.inReset = false → ∃ t, exec .softReset s = .next t
    ∧ t.sp = { s.sp with
        notices := Vector.replicate 15 false, held := { status := .done, echo := 0x0F, payload := [] }, executing := none }
    ∧ t.events = [] ∧ t.needs = {} ∧ t.clock = s.clock ∧ t.pins = s.pins
    ∧ t.ic = { heldLive := s.pins.buslive, leadOrder := s.ic.leadOrder,
               restoreList := s.ic.restoreList.map fun e => { e with skip := false } }
    ∧ (∀ i, t.permit i = if (s.permit i).state = .free then s.permit i
        else { gen := if (s.permit i).gen < 255 then (s.permit i).gen + 1 else 1 })
    ∧ t.ae = { permits := t.ae.permits } ∧ t.se = { feeders := t.se.feeders }
    ∧ (∀ f, t.feeder f =
        { s.feeder f with breaker := .unknown, isLocal := false, permit := none, unconfirmed := none })
    ∧ t.gs = { gensets := t.gs.gensets, store := s.gs.store }
    ∧ (∀ g, (t.genset g).pointer.val = 16 * ((s.genset g).profile.map (·.primary.val)).getD 0
        ∧ t.genset g = { addr := (s.genset g).addr, profile := (s.genset g).profile, pointer := (t.genset g).pointer })
    ∧ t.cu = { arrays := t.cu.arrays, bankA := s.cu.bankA, bankB := s.cu.bankB, current := s.cu.current,
               sharePeriod := s.setting .sharePeriod * 1000 }
    ∧ (∀ a, t.array a = { addr := (s.array a).addr, definition := (s.array a).definition })
    ∧ t.flc = { directory := t.flc.directory, pollList := s.flc.pollList, loop := t.flc.loop }
    ∧ t.flc.loop = (match s.flc.loop with
        | .idle => .idle
        | .gap left => .gap left
        | .sending _ _ | .awaiting _ _ | .receiving _ => .gap (s.setting .interFrameGap))
    ∧ (∀ u, t.entry u = { bound := (s.entry u).bound })

/-! ## The Station Port's own commands -/

/-- The output pins: ATTN is low while a notice flag is set (R184), READY is high while no request is in execution and the part is
not held in reset (R181), LDE is high while a frame is shifted out (R163), MISO is driven while CS is low and the part is not
held in reset, and gives the bytes of the transaction's frame, FFh beyond them (R179, R193). A raised notice sets its flag and
no other (R184); READ NOTICES answers with the flags that are set, as bits 0 to 14 of two bytes, and clears exactly those, so
that ATTN is released (R185, 09 section 9.6). Nothing else changes. -/
def Obligations.NoticesAreRaisedReadAndCleared : Prop :=
  (∀ s : State,
    (s.attnLow = true ↔ ∃ n, s.flagged n = true)
      ∧ (s.ready = true ↔ s.inReset = false ∧ s.sp.executing = none)
      ∧ (s.lde = true ↔ ∃ turn frame, s.flc.loop = .sending turn frame)
      ∧ (s.misoDriven = true ↔ s.pins.csLow = true ∧ s.inReset = false)
      ∧ (∀ k, s.pins.csLow = false ∨ s.inReset = true → s.misoByte k = none)
      ∧ ∀ k x, s.pins.csLow = true → s.inReset = false → s.sp.transaction = some x →
          s.misoByte k = some (x.frame.getD k 0xFF))
    ∧ ∀ s : State, s.inReset = false →
      (∀ n, ∃ t, exec (.noticeRaise n) s = .next t
          ∧ t = { s.took (.noticeRaise n) with sp := { s.sp with notices := t.sp.notices } }
          ∧ (∀ m, t.flagged m = (m == n || s.flagged m)) ∧ t.attnLow = true)
        ∧ ∃ lo hi t, exec .readNotices s = .next t
          ∧ t = State.replied
            { s.took .readNotices with sp := { s.sp with notices := Vector.replicate 15 false } } 0x03 [lo, hi]
          ∧ (∀ k : Fin 15, (lo.toNat + 256 * hi.toNat).testBit k.val = s.sp.notices[k]) ∧ hi.toNat < 128
          ∧ t.attnLow = false

/-- NULL is answered DONE with a length of 0, READ ACCOUNT DONE with the account record, its figures in order, then the needs
(R17, R180, R188); both change the held reply alone. LOOK UP of a record that exists is answered DONE with kind, index and record,
and any other is refused with OUT OF RANGE (R186, R187). The records of the twelve kinds hold their fields at the offsets of 09
section 9.5; of an absent field only the absent value that 09 names is given (the other bytes are free, log 10, log 11). The
widths of the RESTORE ENTRY record are log 68, those of the ISLAND record log 10 and log 92. The
current lead of ENGINE block 2 is the one that the IC has named, the model's choice (log 95). Times are rounded as log 3 says. -/
def Obligations.ReadAccountAndLookUpCarryTheRecords : Prop :=
  ∀ s : State,
    (s.inReset = false → exec .null s = .next ((s.took .null).replied 0x00 [])
        ∧ exec .readAccount s = .next ((s.took .readAccount).replied 0x02 s.accountRecord))
      ∧ s.accountRecord.length = 45
      ∧ s.accountRecord = le4 s.onlineCapacity ++ le4 s.minimumLoad ++ le4 s.stepAcceptance ++ le4 s.chargedLoad
          ++ le4 s.measuredLoad ++ le4 s.exposure ++ le4 s.reserveRequirement ++ le4Signed s.headroom ++ le4 s.ceiling
          ++ le4 s.capacityWanted
          ++ byteOf ((if s.needs.ae = none then 0 else 1) + (if s.needs.ic = none then 0 else 2))
            :: le2 (s.needs.ae.getD 0) ++ le2 (s.needs.ic.getD 0)
      ∧ (∀ kind index, s.inReset = false → recordExists kind index = true → ∃ l, s.lookUp kind index = some l
        ∧ l.take 2 = [byteOf kind, byteOf index]
        ∧ exec (.lookUp kind index) s = .next ((s.took (.lookUp kind index)).replied 0x01 l))
      ∧ (∀ kind index, s.inReset = false → recordExists kind index = false → exec (.lookUp kind index) s =
        .next ((s.took (.lookUp kind index)).repliedRefused 0x01 .outOfRange))
      ∧ (∀ i : Slot, let p := s.permit i
        let used : Bool := p.state != .free
        s.shows 1 i.val 4 [byteOf p.gen, p.state.code] ∧ s.shows 1 i.val 14 (le2 p.charge)
          ∧ s.shows 1 i.val 20 (timerBytes p.waitDeadline)
          ∧ s.shows 1 i.val 24 (if p.state = .queued then le4 ((s.clock - p.queuedAt) / 100) else le4 0xFFFFFFFF)
          ∧ s.shows 1 i.val 28 (revokeCode p.revokeReason :: timerBytes p.revokeDeadline)
          ∧ s.shows 1 i.val 33 (if p.state = .shed then le4 ((s.clock - p.shedAt) / 100) else le4 0xFFFFFFFF)
          ∧ s.shows 1 i.val 39 (timerBytes p.expiryLeft)
          ∧ (used = true → s.shows 1 i.val 2 (le2 (flagsOf
              [true, true, true, true, p.ofFeeder, p.ofFeeder, true, p.state == .queued, p.state == .queued,
               p.state == .revoking, p.state == .revoking, p.state == .shed, p.expiryGiven.isSome, p.expiryLeft.isSome,
               p.state.charged && p.ofFeeder]))
            ∧ s.shows 1 i.val 7 (byteOf p.cls :: le2 p.requested) ∧ s.shows 1 i.val 16 (le4 p.arrival))
          ∧ (∀ h, p.holder = some h → s.shows 1 i.val 6 [holderCode h])
          ∧ (used = true → p.ofFeeder = true → s.shows 1 i.val 10 (le2 p.released ++ le2 p.lastDraw))
          ∧ (∀ n, used = true → p.expiryGiven = some n → s.shows 1 i.val 37 (le2 n))
          ∧ (p.state.charged = true → p.ofFeeder = true → s.shows 1 i.val 43 [if p.overdraw then 1 else 0]))
      ∧ (∀ f : FeederNo, let r := s.feeder f
        s.lookUp 2 f.val = some ([2, byteOf f.val]
          ++ le2 (flagsOf [true, r.addr.isSome, r.permit.isSome, r.unconfirmed.isSome])
          ++ (r.addr.elim 0 fun u => byteOf (u.val + 1)) :: byteOf r.cls :: le2 r.pickup
          ++ byteOf ((if r.lockout then 1 else 0) + (if r.isLocal then 2 else 0)) :: le2 r.shedSeconds
          ++ r.breaker.code :: optHandleBytes r.permit ++ [revokeCode r.unconfirmed]))
      ∧ (∀ g : GensetNo, let r := s.genset g
        s.shows 3 g.val 2 (le2 (flagsOf [r.profile.isSome, r.addr.isSome, (r.profile.bind (·.dark)).isSome,
            (s.laneOf g).isSome, r.phase.isSome, r.minRun.isSome, r.coolDown.isSome, r.phaseLimit.isSome])
            ++ [r.addr.elim 0 fun u => byteOf (u.val + 1)])
          ∧ (∀ p, r.profile = some p → s.shows 3 g.val 5 (le2 p.rated ++ le2 p.minimum ++ le2 p.step
            ++ [byteOf p.merit, byteOf p.primary.val, p.dark.elim 0xFF fun d => byteOf d.val, byteOf p.maxAttempts]
            ++ le2 p.minRun ++ le2 p.coolDown))
          ∧ s.shows 3 g.val 19 ([r.state.code, byteOf r.pointer.val, byteOf r.attempts, laneCode (s.laneOf g),
            phaseCode r.phase] ++ timerBytes r.minRun ++ timerBytes r.coolDown ++ timerBytes r.rest
            ++ timerBytes r.phaseLimit ++ reportMarks r.report :: le2 r.report.output))
      ∧ (∀ l : LaneId, let k := if l = .a then 0 else 1
        (s.run l = none → s.shows 4 k 2 [1, 0, 0, 0xFF, 0xFF])
          ∧ (∀ q, s.run l = some q →
            s.shows 4 k 4 [q.state.code, byteOf q.genset.val, originCode q.origin]
              ∧ (∀ f, q.inFlight = some f → s.shows 4 k 7 (byteOf f.pos.val :: stepBytes f.step))
              ∧ s.shows 4 k 12 (timerBytes q.stepTimer ++ timerBytes q.readyWait
                ++ [byteOf ((if q.token then 1 else 0) + (if q.closeOrdered then 2 else 0))])))
      ∧ (∀ k : Fin 128, let p := s.gs.store[k]
        s.lookUp 5 k.val = some ([5, byteOf k.val, 1, 0, p.kind.code, byteOf p.arg] ++ le2 p.limit))
      ∧ (∀ a : ArrayNo, let r := s.array a
        s.shows 6 a.val 2 (le2 (flagsOf [r.definition.isSome, r.addr.isSome, r.target.isSome, r.isHeld, r.isHeld, r.isHeld,
            r.ordered.isSome, r.claimed.isSome]) ++ [r.addr.elim 0 fun u => byteOf (u.val + 1)])
          ∧ (∀ d, r.definition = some d → s.shows 6 a.val 5 (le2 d.nameplate ++ le2 d.fallback))
          ∧ s.shows 6 a.val 9 [r.state.code]
          ∧ (∀ c, r.target = some c → s.shows 6 a.val 10 (capBytes c))
          ∧ (∀ h, r.state = .held h → s.shows 6 a.val 12 (le2 h.cap ++ [byteOf h.remaining, byteOf h.length]))
          ∧ (∀ c, r.ordered = some c → s.shows 6 a.val 16 (capBytes c))
          ∧ (∀ c, r.claimed = some c → s.shows 6 a.val 18 (le2 c))
          ∧ s.shows 6 a.val 20 (byteOf ((if r.refusal then 1 else 0) + (if s.cu.swapPending then 2 else 0))
            :: le4 r.exposure ++ le2 r.lastOutput ++ [if s.cu.current = .a then 0 else 1]))
      ∧ (∀ a : ArrayNo, let share (k : Nat) (r : Share) : List Byte :=
          [7, byteOf k, 1, 0, byteOf r.weight] ++ le2 r.limit ++ [if r.enabled then 1 else 0]
        s.lookUp 7 a.val = some (share a.val s.cu.bankA[a]) ∧ s.lookUp 7 (8 + a.val) = some (share (8 + a.val) s.cu.bankB[a]))
      ∧ (∀ u : Addr, let e := s.entry u
        s.shows 8 (u.val + 1) 2 ([if e.bound.isSome then 3 else 0, 0, kindCode e.bound,
            e.bound.elim 0xFF fun r => byteOf (recordNo r), contactCode e.contact, byteOf e.missed, byteOf e.orderNo])
          ∧ (e.slot = none → s.shows 8 (u.val + 1) 9 [0])
          ∧ (∀ o, e.slot = some o → s.shows 8 (u.val + 1) 9 ([orderCode o.order.kind, blockCode o.owner,
            if o.urgent then 1 else 0, byteOf o.number, byteOf o.attempts] ++ (orderParams o.order ++ [0, 0, 0, 0]).take 4)))
      ∧ (let i := s.ic
        let n := i.leadOrder.length
        s.shows 9 0 2 ([byteOf (flagsOf [true, i.walkPhase.isSome, i.walkPermit.isSome, i.settle.isSome, i.decision.isSome]), 0]
            ++ [islandCode i.state])
          ∧ s.shows 9 0 6 (timerBytes i.deadConfirm ++ timerBytes i.liveConfirm ++ timerBytes i.holdoff)
          ∧ s.shows 9 0 21 [byteOf i.walkPointer] ∧ s.shows 9 0 23 (optHandleBytes i.walkPermit ++ timerBytes i.settle)
          ∧ s.shows 9 0 29 (byteOf n :: i.leadOrder.map fun g => byteOf g.val)
          ∧ s.shows 9 0 (30 + n) [byteOf i.leadIndex, byteOf i.rounds, if i.suspended then 1 else 0,
            if i.foreignLive then 1 else 0]
          ∧ s.shows 9 0 (35 + n) [if i.standDown then 1 else 0, if i.complete then 1 else 0, if i.releaseQuiet then 1 else 0,
            if i.sequencerQuiet then 1 else 0])
      ∧ (∀ k : Nat, k < 24 →
        (s.ic.restoreList[k]? = none → s.shows 10 k 2 [0, 0, 0xFF])
          ∧ (∀ e, s.ic.restoreList[k]? = some e → s.lookUp 10 k = some
            ([10, byteOf k, 3, 0, byteOf e.feeder.val] ++ le2 e.pickup ++ le2 e.settle ++ [if e.skip then 1 else 0])))
      ∧ (let list (k : Nat) (l : List Byte) : Prop := s.lookUp 11 k = some ([11, byteOf k, 1, 0] ++ l)
        let slots (l : List Slot) : List Byte := byteOf l.length :: l.map fun i => byteOf i.val
        list 0 (slots s.ae.waitQueue) ∧ list 1 (slots s.ae.releaseList) ∧ list 2 (slots s.se.shedList)
          ∧ list 3 (byteOf s.gs.queue.length :: s.gs.queue.flatMap fun e => [byteOf e.genset.val, originCode e.origin])
          ∧ list 4 (byteOf s.flc.urgent.length :: s.flc.urgent.map fun u => byteOf (u.val + 1))
          ∧ list 5 (byteOf s.flc.pollList.length :: byteOf s.flc.cursor :: s.flc.pollList.map fun u => byteOf (u.val + 1)))
      ∧ (let engine (k marks : Nat) (l : List Byte) : Prop := s.lookUp 12 k = some ([12, byteOf k, byteOf marks, 0] ++ l)
        let mark {α : Type} (n : Nat) (o : Option α) : Nat := if o.isSome then n else 0
        engine 0 (1 + mark 2 s.ae.inFlight) (timerBytes s.ae.stepGuard ++ optHandleBytes (s.ae.inFlight.map (·.handle))
            ++ le4 s.ae.arrivals)
          ∧ engine 1 (1 + mark 2 s.se.naming) (s.se.state.code :: le4 s.inFlightCharge ++ optHandleBytes s.se.naming)
          ∧ engine 2 (1 + mark 2 s.gs.stopCandidate + mark 4 s.ic.lead) (laneCode s.tokenHolder :: timerBytes s.gs.stopDelay
            ++ [s.gs.stopCandidate.elim 0xFF fun g => byteOf g.val, s.ic.lead.elim 0xFF fun g => byteOf g.val])
          ∧ engine 3 (1 + mark 2 s.cu.resumeState) ([s.cu.state.code, s.cu.resumeState.elim 0xFF CurtailState.code]
            ++ timerBytes (some s.cu.sharePeriod) ++ timerBytes s.cu.releaseDelay
            ++ [match s.cu.claim with | none => (0 : Byte) | some .raise => 1 | some .release => 2]))

/-- GET SETTING answers the number and the value held, refuses a number above 1Dh, and changes nothing (R190). SET SETTING: a
value in range, where the setting is not protected, is held and answered, and every other setting stays; the missed limit and
the baud rate are protected outside SETUP; a value or a number out of range is refused (R189). At the owning block the four
settings of the account are a posting with its balance updates (R5, R14); the start demand delay has the AE's need judged
(R34), auto stop and the stop level the stop condition, auto stop off abandoning a running stop delay (R104, R110), and a changed
candidate starting a fresh one in the same judgement, the model's choice where R104 only abandons the old (log 57); auto restart
on starts the idle holdoff in DARK with the held bus DEAD (R144, log 67); any other setting is written and nothing else, the
restore margin and the minimum off time, which the next judging uses (R68, log 45), with them. The model's own: OUT OF RANGE is
tested before PROTECTED (log 43); the write and its effect at the owning block are one event (log 48). -/
def Obligations.SettingsAreWrittenReadOrRefused : Prop :=
  ∀ (s : State) (number value : Nat), s.inReset = false →
    (∀ h : number < 30, exec (.getSetting number) s =
        .next ((s.took (.getSetting number)).replied 0x05 (byteOf number :: le4 s.sp.settings[number])))
      ∧ (29 < number → exec (.getSetting number) s =
        .next ((s.took (.getSetting number)).repliedRefused 0x05 .outOfRange))
      ∧ (29 < number → exec (.setSetting number value) s =
        .next ((s.took (.setSetting number value)).repliedRefused 0x04 .outOfRange))
      ∧ (∀ st, Setting.ofNumber number = some st → st.inRange value = false → exec (.setSetting number value) s =
        .next ((s.took (.setSetting number value)).repliedRefused 0x04 .outOfRange))
      ∧ (∀ st, Setting.ofNumber number = some st → st.inRange value = true → (st = .missedLimit ∨ st = .baudRate) →
          s.ic.state ≠ .setup → exec (.setSetting number value) s =
            .next ((s.took (.setSetting number value)).repliedRefused 0x04 .protected_))
      ∧ (∀ st, Setting.ofNumber number = some st → st.inRange value = true →
          ((st = .missedLimit ∨ st = .baudRate) → s.ic.state = .setup) → ∃ t, exec (.setSetting number value) s = .next t
            ∧ t.setting st = value ∧ (∀ st', st' ≠ st → t.setting st' = s.setting st')
            ∧ t.sp.held = { status := .done, echo := 0x04, payload := byteOf number :: le4 value }
            ∧ t.sp.executing = none ∧ t.flc = s.flc ∧ t.pins = s.pins ∧ t.clock = s.clock)
      ∧ ∀ st, Setting.ofNumber number = some st → st.inRange value = true →
          ((st = .missedLimit ∨ st = .baudRate) → s.ic.state = .setup) →
          let c := Instr.setSetting number value
          let written : State := State.replied
            { s.took c with sp := { s.sp with settings := s.sp.settings.set st.index value } } 0x04 (byteOf number :: le4 value)
          let stops (timer : Timer) (g : Option GensetNo) : State :=
            { written with gs := { s.gs with stopDelay := timer, stopCandidate := g } }
          let holds : Prop := value = 1 ∧ s.ic.state = .dark ∧ s.ic.holdoff = none ∧ s.ic.heldLive = false
          (st = .baseReserve ∨ st = .cloudFactor ∨ st = .floorMargin ∨ st = .startLevel →
            ∃ l, exec c s = .next (written.pushAll l) ∧ balanceTold s written l)
          ∧ (st = .startDemandDelay → ∃ t l, exec c s = .next t ∧ balanceTold s t l
            ∧ t = { written with events := written.events ++ l, needs := { s.needs with ae := s.needAt value } })
          ∧ (st = .autoStop → value = 0 → exec c s = .next (stops none none))
          ∧ (st = .autoStop ∨ st = .stopLevel → (written.stopHolds = none → exec c s = .next (stops none none))
            ∧ ∀ g, written.stopHolds = some g → exec c s = .next (stops
              (if s.gs.stopDelay ≠ none ∧ s.gs.stopCandidate = some g then s.gs.stopDelay
                else some (s.setting .stopDelay * 1000)) (some g)))
          ∧ (st = .autoRestart → (holds → exec c s = .next
              { written with ic := { s.ic with holdoff := some (s.setting .restartHoldoff * 1000) } })
            ∧ (¬ holds → exec c s = .next written))
          ∧ (st ∉ [Setting.baseReserve, .cloudFactor, .floorMargin, .startLevel, .startDemandDelay, .autoStop, .stopLevel,
              .autoRestart] → exec c s = .next written)

/-! ## Reserve Account -/

/-- The reserve requirement is the base reserve plus the cloud factor's share of the exposure, rounded up to a whole kilowatt;
headroom is the online capacity less the charged load less the requirement (R2). The ceiling is the measured load less the
minimum load less the floor margin, or 0 when that difference is below 0 (R3). Capacity wanted is the greatest of 0, the start
level less headroom, and each present need less headroom (R4). -/
def Obligations.AccountFiguresFollowTheirRules : Prop :=
  ∀ s : State,
    (∃ part : Nat, part < 100 ∧ 100 * s.reserveRequirement
        = 100 * s.setting .baseReserve + s.setting .cloudFactor * s.exposure + part)
      ∧ s.headroom = (s.onlineCapacity : Int) - s.chargedLoad - s.reserveRequirement
      ∧ (let w : Int := s.capacityWanted
        let quantity (q : Int) : Prop :=
          q = 0 ∨ q = s.setting .startLevel - s.headroom ∨ (∃ n, s.needs.ae = some n ∧ q = n - s.headroom)
            ∨ (∃ n, s.needs.ic = some n ∧ q = n - s.headroom)
        (s.ceiling : Int) = max 0 ((s.measuredLoad : Int) - s.minimumLoad - s.setting .floorMargin)
          ∧ quantity w ∧ ∀ q, quantity q → q ≤ w)

/-- An exposure raise is accepted to the smaller of the raise offered and the greatest whole number x with cloud factor times
(exposure plus x) no more than 100 times (online capacity less charged load less base reserve), and to 0 where no x meets it;
with a cloud factor of 0, whole at a headroom of at least 0 and as 0 below (R8). -/
def Obligations.ExposureRaiseIsClippedToTheGreatestAmount : Prop :=
  ∀ (s : State) (offered : Kw),
    let factor := s.setting .cloudFactor
    let allowance : Int := 100 * ((s.onlineCapacity : Int) - s.chargedLoad - s.setting .baseReserve)
    let fits (x : Nat) : Prop := ((factor * (s.exposure + x) : Nat) : Int) ≤ allowance
    let x := s.clipRaise offered
    x ≤ offered
      ∧ (factor ≠ 0 → fits x ∨ (x = 0 ∧ ∀ y, ¬ fits y))
      ∧ (factor ≠ 0 → ∀ y : Nat, y ≤ offered → fits y → y ≤ x)
      ∧ (factor = 0 → x = if 0 ≤ s.headroom then offered else 0)

/-- A passage of a permit moves the charged load by the permit's own charge, and as a claimed posting it is accepted exactly when
headroom after it is at least 0 or it raises no charge; a refusal changes nothing (R1, R6, R7, R21). After a posting each
watcher is told at most once, and exactly where its figure moved (R14), and SHORTFALL is raised on a crossing below 0 in RUN
and RESTORE (R16). -/
def Obligations.ClaimedPassageNeedsHeadroomAfterIt : Prop :=
  ∀ (s : State) (i : Slot) (p : Permit),
    let t := s.enter i p
    t.headroom = s.headroom + (s.permit i).charge - p.charge
      ∧ (∀ u : State, ∃ l, s.notify u = u.pushAll l ∧ balanceTold s u l)
      ∧ ((p.charge : Int) - (s.permit i).charge ≤ s.headroom ∨ p.charge ≤ (s.permit i).charge →
          s.claim (fun u => u.enter i p) = some (s.notify t))
      ∧ (¬ ((p.charge : Int) - (s.permit i).charge ≤ s.headroom ∨ p.charge ≤ (s.permit i).charge) →
          s.claim (fun u => u.enter i p) = none)

/-- Postings taken as events of their own (R5 to R12): a need in 1 to 16,000 kW is written for its source alone, one out of it
changes nothing (log 52); one of the four account settings is written; a draw report sets the permit's last draw; a freed
permit is FREE with its generation raised; an admission that fits makes a waiting feeder permit STAGING and a reservation
GRANTED; a cut lowers the requested kW, and the released kW to it; a rise is taken where it fits headroom; a genset is
committed ONLINE or leaves ONLINE by a trip; a HELD array lapses. The balance updates that follow the change, ahead of what it
then calls for, are exactly those whose figure it moved (R14, R16); a permit that enters STAGING joins the Release List at its
tail (R35). The island state told to the RA raises SHORTFALL on entry to RUN or RESTORE below 0, and changes
nothing else (R16). The model's own: a POSTING row runs the operation of the block's own event (log 6), and a genset committed
ONLINE loses the mark of a STOP it is owed (log 69) and keeps a rest timer that runs (log 70). -/
def Obligations.PostingsChangeWhatTheyName : Prop :=
  ∀ s : State, s.inReset = false →
    let told (c : Instr) (t : State) : Prop := ∃ l, t.events = (s.took c).events ++ l ∧ balanceTold s t l
    let tells (u t : State) : Prop := ∃ l l', t.events = u.events ++ l ++ l' ∧ balanceTold s u l
    let appended (t : State) (i : Slot) : Prop := ∃ l, t.ae.releaseList = s.ae.releaseList ++ i :: l
    (∀ kw, (∀ n, kw = some n → 1 ≤ n ∧ n ≤ 16000) →
        (let c := Instr.posting (.need .ae kw)
          ∃ t, exec c s = .next t ∧ told c t ∧ t = { s with events := t.events, needs := { s.needs with ae := kw } })
        ∧ (let c := Instr.posting (.need .ic kw)
          ∃ t, exec c s = .next t ∧ told c t ∧ t = { s with events := t.events, needs := { s.needs with ic := kw } }))
      ∧ (∀ source n, n = 0 ∨ 16000 < n →
          exec (.posting (.need source (some n))) s = .next (s.took (.posting (.need source (some n)))))
      ∧ (∀ st v, st = .baseReserve ∨ st = .cloudFactor ∨ st = .floorMargin ∨ st = .startLevel → st.inRange v = true →
          let c := Instr.posting (.setting st v)
          ∃ t, exec c s = .next t ∧ told c t
            ∧ t = { s with events := t.events, sp := { s.sp with settings := s.sp.settings.set st.index v } })
      ∧ (∀ f i kw, s.permitOf f = some i → kw ≤ 16000 →
          let c := Instr.posting (.drawReport f kw)
          ∃ t l, exec c s = .next t
          ∧ (t.permit i).lastDraw = kw ∧ (t.permit i).state = (s.permit i).state
          ∧ (t.permit i).requested = (s.permit i).requested ∧ s.otherPermits t i ∧ s.onlyAdmission t
          ∧ t.events = (s.took c).events
            ++ (if (t.permit i).overdraw ∧ ¬ (s.permit i).overdraw then [.noticeRaise .overdraw] else []) ++ l
          ∧ balanceTold s t l)
      ∧ (∀ i, s.listsExact → (s.permit i).state ≠ .free → let c := Instr.posting (.permitFreed i)
          ∃ t, exec c s = .next t ∧ tells ((s.took c).enter i { s.permit i with state := .free }) t
          ∧ t.permit i = { gen := nextGen (s.permit i).gen } ∧ s.onlyAdmission t)
      ∧ (∀ i, s.listsExact → (s.permit i).state = .queued ∨ (s.permit i).state = .shed →
          ((s.permit i).requested : Int) ≤ s.headroom → let c := Instr.posting (.admission i)
          let p := s.permit i
          ∃ t, exec c s = .next t
          ∧ tells ((s.took c).enter i { p with state := if p.ofFeeder then .staging else .granted, released := 0 }) t
          ∧ (p.ofFeeder = true → appended t i)
          ∧ (t.permit i).state = (if p.ofFeeder then .staging else .granted)
          ∧ (t.permit i).requested = p.requested ∧ (t.permit i).released = 0 ∧ s.onlyAdmission t)
      ∧ (∀ i kw, s.listsExact → (s.permit i).state = .staging ∨ (s.permit i).state = .granted → 1 ≤ kw →
          kw < (s.permit i).requested → let c := Instr.posting (.permitCut i kw)
          let p := s.permit i
          let released := min p.released kw
          ∃ t, exec c s = .next t
          ∧ tells ((s.took c).enter i { p with
              requested := kw, released := released, state := if released = kw then .granted else p.state }) t
          ∧ (t.permit i).requested = kw ∧ (t.permit i).released = released ∧ s.onlyAdmission t)
      ∧ (∀ i kw, s.listsExact → (s.permit i).state = .staging ∨ (s.permit i).state = .granted → (s.permit i).requested < kw →
          kw ≤ 16000 →
          let c := Instr.posting (.chargeIncrease i kw)
          let p := s.permit i
          let q := { p with requested := kw, state := if p.ofFeeder then .staging else p.state }
          ((q.charge : Int) ≤ s.headroom + p.charge ∨ q.charge ≤ p.charge → ∃ t, exec c s = .next t
            ∧ tells ((s.took c).enter i q) t ∧ (p.state = .granted → p.ofFeeder = true → appended t i)
            ∧ (t.permit i).requested = kw ∧ (t.permit i).released = p.released ∧ (t.permit i).state = q.state
            ∧ s.onlyAdmission t)
          ∧ (s.headroom + p.charge < q.charge → p.charge < q.charge → exec c s = .next (s.took c)))
      ∧ (∀ g p, (s.genset g).profile = some p → (s.genset g).state = .off ∨ (s.genset g).state = .unknown →
          s.laneOf g = none → let c := Instr.posting (.gensetOnline g)
          let r : Genset := { s.genset g with state := .online, minRun := some (secs p.minRun), stopOwed := false }
          ∃ t, exec c s = .next t ∧ s.onlySequencer t ∧ t.queued g = false ∧ t.genset g = r
            ∧ tells ((s.took c).setGenset g r) t)
      ∧ (∀ g, (s.genset g).state = .online → s.outside g → let c := Instr.posting (.gensetOffline g)
          let r : Genset := { s.genset g with
            state := .off, minRun := none, rest := some (secs (s.setting .restAfterFailure)) }
          ∃ t, exec c s = .next t ∧ s.onlySequencer t ∧ .noticeRaise .gensetTripped ∈ t.events ∧ t.genset g = r
            ∧ tells ((s.took c).setGenset g r) t)
      ∧ (∀ a, let c := Instr.posting (.arrayLapsed a)
          let r : ArrayRecord := { s.array a with state := .lapsed, claimed := none }
          ((s.array a).isHeld = false → exec c s = .next (s.took c))
          ∧ ((s.array a).isHeld = true → ∃ t, exec c s = .next t ∧ s.onlyCurtailment t
            ∧ (t.array a).exposure = (s.array a).fallback ∧ t.arrayIs a r ∧ tells ((s.took c).setArray a r) t))
      ∧ (∀ left new, exec (.raIslandState left new) s = .next
          (if (new = .run ∨ new = .restore) ∧ (left = .setup ∨ left = .dark ∨ left = .restart) ∧ s.headroom < 0
            then (s.took (.raIslandState left new)).push (.noticeRaise .shortfall)
            else s.took (.raIslandState left new)))

/-! ## Admission Engine -/

/-- RESERVE (R20, R24, R27, R32): its tests in their order (log 43); a reservation that is admissible and fits is GRANTED in the
lowest FREE slot with the fields of R20; one that is not is QUEUED with the default wait limit where it may wait and the queue
has room, and otherwise refused with its slot's generation raised, with QUEUE FULL and the QUEUE REFUSAL notice where it may
wait, and with NO HEADROOM where it may not. -/
def Obligations.ReserveAdmitsQueuesOrRefuses : Prop :=
  ∀ (s : State) (kw cls : Nat) (mayWait : Bool) (expiry : Option Nat), s.inReset = false → s.listsExact →
    let c := Instr.reserve kw cls mayWait expiry
    let inRange : Prop := 1 ≤ kw ∧ kw ≤ 16000 ∧ cls ≤ 3 ∧ ∀ e, expiry = some e → 1 ≤ e ∧ e ≤ 65535
    let refused (r : Reason) : State := (s.took c).repliedRefused 0x21 r
    let blocked : Prop := ∃ j ∈ s.ae.waitQueue, (s.permit j).cls ≤ cls
    let made (i : Slot) : Permit :=
      { gen := (s.permit i).gen, holder := some .station, cls := cls, requested := kw, arrival := s.ae.arrivals,
        expiryGiven := expiry }
    (¬ inRange → exec c s = .next (refused .outOfRange))
      ∧ (inRange → s.ic.state = .restore → exec c s = .next (refused .restoring))
      ∧ (inRange → s.ic.state = .setup ∨ s.ic.state = .dark ∨ s.ic.state = .restart → exec c s = .next (refused .notRunning))
      ∧ (inRange → s.ic.state = .run → s.ic.standDown = true → exec c s = .next (refused .standDown))
      ∧ (inRange → s.ic.state = .run → s.ic.standDown = false → 8 ≤ s.reservations → exec c s = .next (refused .tableFull))
      ∧ (∀ i, inRange → s.ic.state = .run → s.ic.standDown = false → s.reservations < 8 → s.freeSlot = some i →
          (¬ blocked → (kw : Int) ≤ s.headroom → ∃ t, exec c s = .next t
            ∧ t.permit i = { made i with state := .granted, expiryLeft := expiry.map secs }
            ∧ s.otherPermits t i ∧ t.ae.arrivals = min (s.ae.arrivals + 1) 0xFFFFFFFF ∧ t.ae.waitQueue = s.ae.waitQueue
            ∧ State.onlyAdmission (s.replied 0x21 [byteOf i.val, byteOf (s.permit i).gen, 3]) t)
          ∧ (blocked ∨ s.headroom < kw → mayWait = true → s.ae.waitQueue.length < 16 → ∃ t, exec c s = .next t
            ∧ t.permit i = { made i with
                state := .queued, waitDeadline := some (secs (s.setting .defaultWaitLimit)), queuedAt := s.clock }
            ∧ s.otherPermits t i ∧ i ∈ t.ae.waitQueue ∧ t.ae.arrivals = min (s.ae.arrivals + 1) 0xFFFFFFFF
            ∧ State.onlyAdmission (s.replied 0x21 [byteOf i.val, byteOf (s.permit i).gen, 1]) t)
          ∧ (blocked ∨ s.headroom < kw → mayWait = false ∨ 16 ≤ s.ae.waitQueue.length → ∃ t, exec c s = .next t
            ∧ t.permit i = { gen := nextGen (s.permit i).gen } ∧ s.otherPermits t i
            ∧ t.ae.arrivals = min (s.ae.arrivals + 1) 0xFFFFFFFF ∧ (mayWait = true → .noticeRaise .queueRefusal ∈ t.events)
            ∧ State.onlyAdmission (s.repliedRefused 0x21 (if mayWait then .queueFull else .noHeadroom)) t))

/-- ADJUST (R29): its refusals; a QUEUED permit takes the figure; a STAGING or GRANTED one takes a decrease at once, with its
released kW cut to it and GRANTED once fully released, and a rise where it fits headroom, a feeder's then STAGING: from GRANTED it
joins the Release List at its tail, and STAGING already it keeps its place there (R35). Either brings a feeder's unit a confirming
GRANT with the released kW, unless the SE holds its slot (R29, R39), and ends the release in flight to the permit uncounted, the
step guard as it was, so that any in flight afterwards is one that the service in the same event made, while one to another permit
goes on (R38). OUT OF RANGE ahead of STALE HANDLE, and RESTORING ahead of STAND DOWN, are the model's order of the tests (log 43).
-/
def Obligations.AdjustTakesDecreasesAtOnceAndRisesThatFit : Prop :=
  ∀ (s : State) (h : Handle) (kw : Nat), s.inReset = false → s.listsExact →
    let c := Instr.adjust h kw
    let refused (r : Reason) : State := (s.took c).repliedRefused 0x22 r
    let inRange : Prop := 1 ≤ kw ∧ kw ≤ 16000
    let answer (p : Permit) : List Byte :=
      p.state.code :: le2 p.requested ++ le2 (if p.ofFeeder then p.released else 0) ++ le2 p.charge
    let confirmed (t : State) (i : Slot) (released : Kw) : Prop :=
      (∀ f, (s.permit i).holder = some (.feeder f) → s.seHolds f = false → .orderPlacement
        { target := .feeder f, order := .grant ⟨i.val, (s.permit i).gen⟩ released false, owner := .ae, urgent := false }
          ∈ t.events)
        ∧ (s.flightTo i = true → t.ae.stepGuard = s.ae.stepGuard ∧ (s.ae.stepGuard ≠ none → t.ae.inFlight = none)
          ∧ ∀ x, t.ae.inFlight = some x → .orderPlacement
            { target := .feeder x.feeder, order := .grant x.handle x.kw true, owner := .ae, urgent := false } ∈ t.events)
        ∧ (s.ae.inFlight ≠ none → s.flightTo i = false → t.ae.inFlight = s.ae.inFlight)
    (¬ inRange → exec c s = .next (refused .outOfRange))
      ∧ (inRange → s.live h = none → exec c s = .next (refused .staleHandle))
      ∧ (∀ i, inRange → s.live h = some i →
          let p := s.permit i
          (p.state = .unverified ∨ p.state = .revoking ∨ p.state = .shed → exec c s = .next (refused .wrongState))
          ∧ (p.state = .queued → ∃ t, exec c s = .next t ∧ (t.permit i).requested = kw ∧ (t.permit i).state = .queued
            ∧ (t.permit i).waitDeadline = p.waitDeadline ∧ (t.permit i).queuedAt = p.queuedAt
            ∧ t.ae.waitQueue = s.ae.waitQueue ∧ s.otherPermits t i ∧ State.onlyAdmission (s.replied 0x22 (answer (t.permit i))) t)
          ∧ (p.state = .staging ∨ p.state = .granted → kw ≤ p.requested → ∃ t, exec c s = .next t
            ∧ (t.permit i).requested = kw ∧ (t.permit i).released = min p.released kw
            ∧ (t.permit i).state = (if min p.released kw = kw then .granted else p.state)
            ∧ confirmed t i (min p.released kw)
            ∧ State.onlyAdmission (s.replied 0x22 (answer (t.permit i))) t)
          ∧ (p.state = .staging ∨ p.state = .granted → p.requested < kw →
              (s.ic.state = .restore → exec c s = .next (refused .restoring))
              ∧ (s.ic.state ≠ .restore → s.ic.standDown = true → exec c s = .next (refused .standDown))
              ∧ (∀ q, q = { p with requested := kw, state := if p.ofFeeder then .staging else p.state } →
                  s.ic.state ≠ .restore → s.ic.standDown = false →
                  ((q.charge : Int) ≤ s.headroom + p.charge ∨ q.charge ≤ p.charge → ∃ t, exec c s = .next t
                    ∧ (t.permit i).requested = kw ∧ (t.permit i).released = p.released ∧ (t.permit i).state = q.state
                    ∧ (p.ofFeeder = true → p.state = .granted → ∃ l, t.ae.releaseList = s.ae.releaseList ++ i :: l)
                    ∧ (p.state = .staging → ∃ l, t.ae.releaseList = s.ae.releaseList ++ l)
                    ∧ confirmed t i p.released
                    ∧ State.onlyAdmission (s.replied 0x22 (answer (t.permit i))) t)
                  ∧ (s.headroom + p.charge < q.charge → p.charge < q.charge → exec c s = .next (refused .noHeadroom)))))

/-- RETIRE (R30): a stale handle is refused; a QUEUED, UNVERIFIED or SHED permit and a GRANTED reservation are FREE with the
generation raised; a STAGING or GRANTED feeder permit is REVOKING for RETIRE, with its revoke deadline and an urgent OPEN; a
LADDER revocation under way becomes one for RETIRE. SHED NOW (R59, R61, R70): its refusals; a GRANTED permit, or a STAGING one
with kW released or in flight, is REVOKING for LADDER with its deadline and an urgent OPEN; a STAGING one with nothing
released or in flight is SHED at once, its GRANT withdrawn. NOT RUNNING ahead of STALE HANDLE is the model's order of SHED
NOW's tests (log 20); the OPEN carries the permit it belongs to inside the model (log 49). -/
def Obligations.RetireAndShedNowEndOrRevokeThePermit : Prop :=
  ∀ (s : State) (h : Handle), s.inReset = false → s.listsExact →
    (let c := Instr.retire h;
      (s.live h = none → exec c s = .next ((s.took c).repliedRefused 0x23 .staleHandle))
      ∧ (∀ i, s.live h = some i →
          let p := s.permit i
          (p.state = .queued ∨ p.state = .unverified ∨ p.state = .shed
              ∨ ((p.state = .staging ∨ p.state = .granted) ∧ p.ofFeeder = false) → ∃ t, exec c s = .next t
            ∧ t.permit i = { gen := nextGen p.gen } ∧ State.onlyAdmission (s.replied 0x23 [0]) t)
          ∧ (∀ f, p.holder = some (.feeder f) → p.state = .staging ∨ p.state = .granted → ∃ t, exec c s = .next t
            ∧ s.revokingFor t i f .retire ∧ State.onlyAdmission (s.replied 0x23 [5]) t)
          ∧ (p.state = .revoking → ∃ t, exec c s = .next t ∧ (t.permit i).state = .revoking
            ∧ (p.revokeReason ≠ none → (t.permit i).revokeReason = some .retire)
            ∧ (t.permit i).revokeDeadline = p.revokeDeadline ∧ State.onlyAdmission (s.replied 0x23 [5]) t)))
      ∧ (let c := Instr.shedNow h
        let refused (r : Reason) : State := (s.took c).repliedRefused 0x25 r
        (s.active = false → exec c s = .next (refused .notRunning))
        ∧ (s.active = true → s.live h = none → exec c s = .next (refused .staleHandle))
        ∧ (∀ i, s.active = true → s.live h = some i →
            let p := s.permit i
            (p.ofFeeder = false ∨ (p.state ≠ .granted ∧ p.state ≠ .staging) → exec c s = .next (refused .wrongState))
            ∧ (∀ f, p.holder = some (.feeder f) →
                p.state = .granted ∨ (p.state = .staging ∧ (p.released ≠ 0 ∨ s.flightTo i = true)) →
              ∃ t, exec c s = .next t ∧ s.revokingFor t i f .ladder ∧ State.onlyAdmission (s.replied 0x25 [5]) t)
            ∧ (∀ f, p.holder = some (.feeder f) → p.state = .staging → p.released = 0 → s.flightTo i = false →
              ∃ t, exec c s = .next t ∧ (t.permit i).state = .shed ∧ (t.permit i).shedAt = s.clock
              ∧ (t.permit i).requested = p.requested
              ∧ .orderWithdrawal { target := .feeder f, kind := .grant, by_ := .se } ∈ t.events
              ∧ State.onlyAdmission (s.replied 0x25 [6]) t)))

/-- Deadlines (R28, R33, R63): a wait deadline frees the QUEUED permit with QUEUE REFUSAL, and sends a feeder's unit a DENY with
WAIT EXPIRED, unless the SE holds its slot (R22), which carries no handle (log 45); a reservation's expiry frees it; a revoke
deadline leaves a REVOKING feeder permit UNVERIFIED with REVOKE FAILED, its requested and released kW and its last draw kept,
and sets the feeder's unconfirmed revocation to the reason it had. Each acts only in its own state. -/
def Obligations.DeadlinesEndTheirPermits : Prop :=
  ∀ (s : State) (i : Slot), s.inReset = false → s.listsExact →
    let p := s.permit i
    (p.state = .queued → p.waitDeadline ≠ none → ∃ t, exec (.waitDeadlineExpiry i) s = .next t
        ∧ t.permit i = { gen := nextGen p.gen } ∧ s.otherPermits t i ∧ .noticeRaise .queueRefusal ∈ t.events
        ∧ (∀ f, p.holder = some (.feeder f) → s.seHolds f = false → .orderPlacement
          { target := .feeder f, order := .deny none .waitExpired, owner := .ae, urgent := false } ∈ t.events)
        ∧ s.onlyAdmission t)
      ∧ (p.state ≠ .queued ∨ p.waitDeadline = none →
          exec (.waitDeadlineExpiry i) s = .next (s.took (.waitDeadlineExpiry i)))
      ∧ (p.state = .granted → p.expiryLeft ≠ none → ∃ t, exec (.reservationExpiry i) s = .next t
        ∧ t.permit i = { gen := nextGen p.gen } ∧ s.otherPermits t i ∧ s.onlyAdmission t)
      ∧ (p.state ≠ .granted ∨ p.expiryLeft = none →
          exec (.reservationExpiry i) s = .next (s.took (.reservationExpiry i)))
      ∧ (∀ f, p.holder = some (.feeder f) → p.state = .revoking → ∃ t, exec (.revokeDeadlineExpiry i) s = .next t
        ∧ (t.permit i).state = .unverified ∧ (t.permit i).requested = p.requested ∧ (t.permit i).released = p.released
        ∧ (t.permit i).lastDraw = p.lastDraw ∧ (t.feeder f).unconfirmed = p.revokeReason
        ∧ .noticeRaise .revokeFailed ∈ t.events ∧ s.onlyAdmission t)
      ∧ (p.state ≠ .revoking → exec (.revokeDeadlineExpiry i) s = .next (s.took (.revokeDeadlineExpiry i)))

/-- A service with no candidate and no queue to serve makes the release that R36 allows, to its target and of its amount, and no
other change, and none where a condition of R36 fails. The target is the first on the Release List whose unit is not SILENT and
whose slot holds no order of the SE; it is judged on the slot as it stands once what is on its way is taken (log 7). The balance
update serves with the step guard idle, the guard's expiry returns it to idle and serves (R36, R37, R40). With no candidate, a
service in RUN without stand-down admits the head of the Wait Queue where it fits, STAGING at the tail of the Release List or
for a reservation GRANTED, and keeps the queue as it is where it does not (R35, R40). Where the head of the Wait Queue has
waited the start demand delay the need is its requested kW, and otherwise there is none, a figure that no entry may hold placing
nothing (R34, R12, log 52). -/
def Obligations.ServiceMakesTheReleaseAndTheNeedFollowsTheHead : Prop :=
  ∀ s : State, s.inReset = false →
    let rests : Prop := s.ae.candidate = none ∧ (s.ae.waitQueue = [] ∨ s.ic.state ≠ .run ∨ s.ic.standDown = true)
    let takes (i : Slot) : Prop := ∃ f, (s.permit i).holder = some (.feeder f) ∧ s.contactOf (.feeder f) ≠ .silent
      ∧ s.seHolds f = false
    (∀ i, s.releaseTarget = some i ↔ ∃ n : Nat, s.ae.releaseList[n]? = some i ∧ takes i
        ∧ ∀ m < n, ∀ j, s.ae.releaseList[m]? = some j → ¬ takes j)
      ∧ (∀ c : Instr, c = .aeBalanceUpdate ∨ (c = .stepGuardExpiry ∧ s.ae.stepGuard ≠ none) → rests →
          let guard := if c = .stepGuardExpiry then none else s.ae.stepGuard
          guard ≠ none ∨ s.ae.inFlight ≠ none ∨ s.headroom < 0 ∨ s.stepAcceptance = 0 ∨ (s.took c).releaseTarget = none →
          exec c s = .next { s.took c with ae := { s.ae with stepGuard := guard } })
      ∧ (∀ (c : Instr) (i : Slot) (f : FeederNo),
        (c = .aeBalanceUpdate ∧ s.ae.stepGuard = none) ∨ (c = .stepGuardExpiry ∧ s.ae.stepGuard ≠ none) →
        rests → s.ae.inFlight = none → 0 ≤ s.headroom → 0 < s.stepAcceptance → (s.took c).releaseTarget = some i →
        (s.permit i).holder = some (.feeder f) →
        let p := s.permit i
        let kw := p.released + min (p.requested - p.released) s.stepAcceptance
        let h : Handle := ⟨i.val, p.gen⟩
        exec c s = .next { s.took c with
          ae := { s.ae with stepGuard := none, inFlight := some { handle := h, feeder := f, kw := kw } }
          events := (s.took c).events
            ++ [.orderPlacement { target := .feeder f, order := .grant h kw true, owner := .ae, urgent := false }] })
      ∧ (∀ (c : Instr) (i : Slot) (l : List Slot),
          c = .aeBalanceUpdate ∨ (c = .stepGuardExpiry ∧ s.ae.stepGuard ≠ none) →
          s.listsExact → s.ae.candidate = none → s.ic.state = .run → s.ic.standDown = false → s.ae.waitQueue = i :: l →
          let p := s.permit i
          ((p.requested : Int) ≤ s.headroom → ∃ t, exec c s = .next t ∧ s.onlyAdmission t ∧ i ∉ t.ae.waitQueue
            ∧ (t.permit i).state = (if p.ofFeeder then .staging else .granted) ∧ (t.permit i).requested = p.requested
            ∧ (t.permit i).arrival = p.arrival ∧ (t.permit i).gen = p.gen
            ∧ (p.ofFeeder = true → ∃ k, t.ae.releaseList = s.ae.releaseList ++ i :: k))
          ∧ (s.headroom < p.requested → 0 < p.requested → ∃ t, exec c s = .next t ∧ s.onlyAdmission t
            ∧ t.ae.waitQueue = s.ae.waitQueue ∧ ∀ j, t.permit j = s.permit j))
      ∧ (∃ t, exec .startDemandDelay s = .next t ∧ t = { s with
          events := t.events, needs := { s.needs with ae := s.needAt (s.setting .startDemandDelay) } })

/-- The candidate (R40, R41, R68, R69, log 44): a service offers the one that is named, SHED, and fits, which is then STAGING
with nothing released, at the tail of the Release List (R35), and the SE is told; the restore candidate is the first in the Shed
List whose feeder is not locked out and that has been SHED for the minimum off time; at the end of a naming, and when a permit
has been SHED for the minimum off time, the SE names it where R68 allows, and changes nothing else. -/
def Obligations.CandidateIsNamedOfferedAndRestored : Prop :=
  ∀ s : State, s.inReset = false →
    let ready (i : Slot) : Prop := ∃ f, (s.permit i).holder = some (.feeder f) ∧ (s.feeder f).lockout = false
      ∧ s.setting .minimumOffTime * 1000 ≤ s.clock - (s.permit i).shedAt
    (∀ k, s.restoreCandidate = some k ↔ ∃ n : Nat, s.se.shedList[n]? = some k ∧ ready k
        ∧ ∀ m < n, ∀ j, s.se.shedList[m]? = some j → ¬ ready j)
      ∧ (∀ h i, s.listsExact → (s.se.naming = none ∨ s.ae.candidate = some h) → s.live h = some i → (s.permit i).state = .shed →
        s.active = true → s.ic.standDown = false → ((s.permit i).requested : Int) ≤ s.headroom →
        ∃ t, exec (.shedListCandidateNamed h) s = .next t
          ∧ (t.permit i).state = .staging ∧ (t.permit i).released = 0 ∧ (t.permit i).requested = (s.permit i).requested
          ∧ (t.permit i).arrival = (s.permit i).arrival ∧ (t.permit i).gen = (s.permit i).gen
          ∧ (∃ l, t.ae.releaseList = s.ae.releaseList ++ i :: l) ∧ .namingEnd .made ∈ t.events ∧ s.onlyAdmission t)
      ∧ (∀ c i, (c = .minimumOffTime i ∧ s.se.naming = none) ∨ (∃ r, c = .namingEnd r) →
          let u := s.took c
          let unnamed : State := { u with se := { s.se with naming := none } }
          (∀ k, s.active = true → s.ic.standDown = false → s.se.state = .idle → s.restoreCandidate = some k →
            ((s.permit k).requested + s.setting .restoreMargin : Int) ≤ s.headroom →
            exec c s = .next { unnamed with
              se := { s.se with naming := some ⟨k.val, (s.permit k).gen⟩ }
              ae := { s.ae with candidate := some ⟨k.val, (s.permit k).gen⟩ }
              events := u.events ++ [.shedListCandidateNamed ⟨k.val, (s.permit k).gen⟩] })
          ∧ (s.active = false ∨ s.ic.standDown = true ∨ s.se.state ≠ .idle ∨ s.restoreCandidate = none
              ∨ (∃ k, s.restoreCandidate = some k
                ∧ s.headroom < ((s.permit k).requested + s.setting .restoreMargin : Int)) →
            exec c s = .next unnamed))

/-- A feeder REPLY at the AE (R11, R22 to R26, R42): without a claim, a breaker OPEN report frees a GRANTED permit and any other
report of a GRANTED, STAGING or REVOKING one sets its last draw. A new DRAW REQUEST is refused for its figures, the island state
and stand-down in that order; else it makes a permit with the draw reported, STAGING at the tail of the Release List where it is
admissible (R35), QUEUED with a WAIT where it is not and may wait, and else is refused with NO HEADROOM, or QUEUE FULL with its
notice. A claim with a handle that names no permit of the feeder is refused with STALE HANDLE; a CHANGE of the feeder's own
permit follows its state (R25, R29); a RELEASE with the breaker OPEN frees its permit and empties the slot of the AE's order,
and with it CLOSED is refused. Each answer is placed unless the SE holds the slot; a refusal changes no record but what the
report changes. The slot is judged with what is on its way (log 7), a DENY that is dropped is log 14, and a CHANGE without a
handle is answered without one (log 45); a release in flight whose GRANT a DENY replaces stays in flight (log 55). That a RELEASE
empties the slot is said of states in which an order of the AE is a GRANT, a WAIT or a DENY (07 section 7.4), which every step
keeps. -/
def Obligations.FeederRepliesReportClaimAndRelease : Prop :=
  ∀ (s : State) (d : FeederDelivery), s.inReset = false → s.listsExact → d.answer = none → d.report.draw ≤ 16000 →
    let f := d.feeder
    let held : Bool := s.seHolds f
    let placed (t : State) (o : Order) : Prop :=
      .orderPlacement { target := .feeder f, order := o, owner := .ae, urgent := false } ∈ t.events
    let refusedAs (c : Instr) (h : Option Handle) (r : Reason) : Prop :=
      ∃ t, exec c s = .next t ∧ s.onlyAdmission t ∧ (held = false → placed t (.deny h r))
        ∧ ∃ v, exec (.aeReplyDelivery d) s = .next v ∧ t.ae = v.ae ∧ t.se = v.se ∧ t.needs = v.needs
          ∧ (held = true → (∀ i, s.permitOf f = some i → (s.permit i).state ≠ .revoking ∧ (s.permit i).state ≠ .unverified) →
            ∀ e ∈ t.events, e ∈ v.events ∨ e ∈ s.events)
    let named? (h : Handle) : Option Handle := if s.live h = none then none else some h
    let appended (t : State) (i : Slot) : Prop := ∃ l, t.ae.releaseList = s.ae.releaseList ++ i :: l
    let unadopted : Prop := d.report.closed = false ∨ s.adopts f = false
    let steady (i : Slot) : Prop := d.was = .silent → (s.permit i).state ≠ .staging
    (∀ i, s.permitOf f = some i →
        let p := s.permit i
        (p.state = .granted → d.report.closed = false → ∃ t, exec (.aeReplyDelivery d) s = .next t
          ∧ t.permit i = { gen := nextGen p.gen } ∧ s.onlyAdmission t)
        ∧ (p.state = .staging ∨ (d.report.closed = true ∧ (p.state = .granted ∨ p.state = .revoking)) →
          ∃ t, exec (.aeReplyDelivery d) s = .next t ∧ (t.permit i).state = p.state ∧ (t.permit i).lastDraw = d.report.draw
            ∧ (t.permit i).requested = p.requested ∧ (t.permit i).released = p.released ∧ s.onlyAdmission t))
      ∧ (∀ claim : DrawClaim, claim.handle = none → s.permitOf f = none → unadopted →
          let c := Instr.drawRequest d claim
          let formed : Prop := 1 ≤ claim.kw ∧ claim.kw ≤ 16000 ∧ claim.waitLimit ≤ 600
          let admissible : Prop :=
            (∀ j ∈ s.ae.waitQueue, (s.feeder f).cls < (s.permit j).cls) ∧ (claim.kw : Int) ≤ s.headroom
          let made (t : State) (i : Slot) : Prop :=
            (t.permit i).holder = some (.feeder f) ∧ (t.permit i).cls = (s.feeder f).cls ∧ (t.permit i).requested = claim.kw
              ∧ (t.permit i).released = 0 ∧ (t.permit i).lastDraw = d.report.draw ∧ (t.permit i).gen = (s.permit i).gen
              ∧ t.ae.arrivals = min (s.ae.arrivals + 1) 0xFFFFFFFF ∧ s.onlyAdmission t
          (¬ formed → refusedAs c none .outOfRange)
          ∧ (formed → s.ic.state = .setup ∨ s.ic.state = .dark ∨ s.ic.state = .restart → refusedAs c none .notRunning)
          ∧ (formed → s.ic.state = .restore → refusedAs c none .restoring)
          ∧ (formed → s.ic.state = .run → s.ic.standDown = true → refusedAs c none .standDown)
          ∧ ∀ i, formed → s.ic.state = .run → s.ic.standDown = false → s.freeSlot = some i →
            let h : Handle := ⟨i.val, (s.permit i).gen⟩
            let wait := (if claim.waitLimit = 0 then s.setting .defaultWaitLimit else claim.waitLimit) * 1000
            let dropped (t : State) : Prop := (∀ j, t.permit j = s.permit j) ∧ t.ae = s.ae ∧ t.se = s.se ∧ t.needs = s.needs
            let burnt (t : State) (r : Reason) : Prop := t.permit i = { gen := nextGen (s.permit i).gen }
              ∧ s.otherPermits t i ∧ t.ae.arrivals = min (s.ae.arrivals + 1) 0xFFFFFFFF ∧ placed t (.deny none r)
            (admissible → ∃ t, exec c s = .next t ∧ made t i ∧ (t.permit i).state = .staging ∧ appended t i
              ∧ (held = false → placed t (.grant h 0 false)))
            ∧ (¬ admissible → claim.mayWait = true → s.ae.waitQueue.length < 16 → ∃ t, exec c s = .next t ∧ made t i
              ∧ (t.permit i).state = .queued ∧ (t.permit i).waitDeadline = some wait ∧ (t.permit i).queuedAt = s.clock
              ∧ i ∈ t.ae.waitQueue ∧ (held = false → placed t (.wait h wait)))
            ∧ (¬ admissible → claim.mayWait = true → 16 ≤ s.ae.waitQueue.length → ∃ t, exec c s = .next t
              ∧ s.onlyAdmission t ∧ (held = true → dropped t)
              ∧ (held = false → burnt t .queueFull ∧ .noticeRaise .queueRefusal ∈ t.events))
            ∧ (¬ admissible → claim.mayWait = false → ∃ t, exec c s = .next t ∧ s.onlyAdmission t
              ∧ (held = true → dropped t) ∧ (held = false → burnt t .noHeadroom)))
      ∧ (∀ h, s.permitsSingle → s.named f h = none → s.permitOf f ≠ none ∨ unadopted →
          (∀ claim : DrawClaim, claim.handle = some h → refusedAs (.drawRequest d claim) (named? h) .staleHandle)
          ∧ refusedAs (.release d h) (named? h) .staleHandle)
      ∧ (∀ (claim : DrawClaim) i, s.permitOf f = some i → (s.permit i).holder = some (.feeder f) →
          claim.handle = none ∨ claim.handle = some ⟨i.val, (s.permit i).gen⟩ →
          let c := Instr.drawRequest d claim
          let p := s.permit i
          let h := claim.handle
          let inRange : Prop := 1 ≤ claim.kw ∧ claim.kw ≤ 16000
          let closed : Prop := d.report.closed = true
          let kept : Prop := steady i ∧ (p.state = .staging ∨ (p.state = .granted ∧ closed)
            ∨ ((p.state = .queued ∨ p.state = .shed) ∧ unadopted) ∨ (p.state = .revoking ∧ closed)
            ∨ (p.state = .unverified ∧ closed ∧ (s.feeder f).unconfirmed ≠ none))
          let moves : Prop := kept ∧ inRange ∧ (p.state = .staging ∨ p.state = .granted)
          let fits : Prop := (claim.kw : Int) ≤ s.headroom + p.requested
          (kept → ¬ inRange → refusedAs c h .outOfRange)
          ∧ (kept → inRange → p.state = .unverified ∨ p.state = .revoking ∨ p.state = .shed → refusedAs c h .wrongState)
          ∧ (kept → inRange → p.state = .queued → ∃ t, exec c s = .next t ∧ s.onlyAdmission t ∧ s.otherPermits t i
            ∧ (t.permit i).state = .queued ∧ (t.permit i).requested = claim.kw ∧ (t.permit i).waitDeadline = p.waitDeadline
            ∧ (t.permit i).queuedAt = p.queuedAt ∧ (t.permit i).arrival = p.arrival ∧ t.ae.waitQueue = s.ae.waitQueue
            ∧ (held = false → placed t (.wait ⟨i.val, p.gen⟩ (p.waitDeadline.getD 0))))
          ∧ (moves → claim.kw ≤ p.requested → let released := min p.released claim.kw
            ∃ t, exec c s = .next t ∧ s.onlyAdmission t ∧ (t.permit i).requested = claim.kw
              ∧ (t.permit i).released = released ∧ (t.permit i).gen = p.gen
              ∧ (t.permit i).state = (if released = claim.kw then .granted else p.state)
              ∧ (held = false → placed t (.grant ⟨i.val, p.gen⟩ released false)))
          ∧ (moves → p.requested < claim.kw → s.ic.state = .restore → refusedAs c h .restoring)
          ∧ (moves → p.requested < claim.kw → s.ic.state ≠ .restore → s.ic.standDown = true → refusedAs c h .standDown)
          ∧ (moves → p.requested < claim.kw → s.ic.state ≠ .restore → s.ic.standDown = false →
            p.state = .staging ∨ (p.lastDraw ≤ p.requested ∧ d.report.draw ≤ p.requested) →
            (fits → ∃ t, exec c s = .next t ∧ s.onlyAdmission t ∧ (t.permit i).state = .staging
              ∧ (t.permit i).requested = claim.kw ∧ (t.permit i).released = p.released ∧ (t.permit i).gen = p.gen
              ∧ (p.state = .granted → appended t i)
              ∧ (held = false → placed t (.grant ⟨i.val, p.gen⟩ p.released false)))
            ∧ (¬ fits → refusedAs c h .noHeadroom)))
      ∧ ∀ i, s.permitOf f = some i → (s.permit i).holder = some (.feeder f) → let p := s.permit i
          let h : Handle := ⟨i.val, p.gen⟩
          (d.report.closed = true → refusedAs (.release d h) (some h) .wrongState)
          ∧ (d.report.closed = false → steady i → ∃ t, exec (.release d h) s = .next t ∧ s.onlyAdmission t
            ∧ t.permit i = { gen := nextGen p.gen } ∧ t.permitOf f = none
            ∧ (s.ordersOwned → ∀ o, s.slotView (.feeder f) = some (o, .ae) →
              .orderWithdrawal { target := .feeder f, kind := o.kind, by_ := .ae } ∈ t.events))

/-- A feeder report by the state of the feeder's own permit. A breaker OPEN confirms a revocation: LADDER's into SHED at the
report's draw, its OPEN withdrawn, RETIRE's into FREE (R61). It settles an UNVERIFIED permit: FREE, or SHED where a LADDER
revocation was unconfirmed; CLOSED returns one with none to GRANTED with a confirming GRANT, and leaves the other UNVERIFIED
(R46, R64). A CLOSED report with no permit, or one in QUEUED or SHED, is adopted in RUN, and in RESTORE for an entry at or
before the walk pointer: GRANTED at the draw, or at 1 kW, with UNPERMITTED CLOSE but for a member of the Adoption Set (R43,
R44, R142); else only the last draw is taken. Leaving SHED adds the time in it to the shed seconds (R54). The overdraw mark is
judged on a changed draw, and OVERDRAW raised as it sets (R21). What is on its way counts in the slot and in the Adoption Set
(log 7). An UNVERIFIED permit settles however it became so (log 15), the OPEN is withdrawn in this event (log 19), and a
removal asked for counts as made (log 39). -/
def Obligations.FeederReportsSettleThePermit : Prop :=
  ∀ (s : State) (d : FeederDelivery), s.inReset = false → s.listsExact → d.answer = none → d.report.draw ≤ 16000 →
    let c := Instr.aeReplyDelivery d
    let f := d.feeder
    let draw := d.report.draw
    let closed := d.report.closed
    let quiet := (s.took c).inAdoptionSet f
    let adopts : Prop := s.ic.state = .run
      ∨ (s.ic.state = .restore ∧ ∃ e ∈ s.ic.restoreList.take (s.ic.walkPointer + 1), e.feeder = f)
    (s.permitOf f = none →
        (¬ (closed = true ∧ adopts) → exec c s = .next
          { s.took c with events := (s.took c).events ++ (if quiet then [.adoptionSetRemoval f] else []) })
        ∧ (∀ i, closed = true → adopts → s.freeSlot = some i → ∃ t, exec c s = .next t ∧ s.onlyAdmission t
          ∧ (t.permit i).state = .granted ∧ (t.permit i).holder = some (.feeder f) ∧ (t.permit i).gen = (s.permit i).gen
          ∧ (t.permit i).cls = (s.feeder f).cls ∧ (t.permit i).requested = max 1 draw ∧ (t.permit i).released = max 1 draw
          ∧ (t.permit i).lastDraw = draw ∧ t.ae.arrivals = min (s.ae.arrivals + 1) 0xFFFFFFFF
          ∧ (quiet = false → .noticeRaise .unpermittedClose ∈ t.events)))
      ∧ ∀ i, s.permitOf f = some i → (s.permit i).holder = some (.feeder f) →
        let p := s.permit i
        let shedAs (t : State) : Prop :=
          (t.permit i).state = .shed ∧ (t.permit i).shedAt = s.clock ∧ (t.permit i).released = 0
            ∧ (t.permit i).lastDraw = draw ∧ (t.permit i).requested = p.requested
            ∧ (t.permit i).arrival = p.arrival ∧ (t.permit i).gen = p.gen
        let withdrawn (t : State) : Prop := (s.took c).openHeld f = true →
          .orderWithdrawal { target := .feeder f, kind := .open_, by_ := .se } ∈ t.events
        (p.state = .revoking → closed = false → ∃ t, exec c s = .next t ∧ s.onlyAdmission t ∧ withdrawn t
            ∧ (p.revokeReason ≠ some .retire → shedAs t)
            ∧ (p.revokeReason = some .retire → t.permit i = { gen := nextGen p.gen }))
        ∧ (p.state = .unverified → ∃ t, exec c s = .next t ∧ s.onlyAdmission t
            ∧ (closed = false → (s.feeder f).unconfirmed = some .ladder → shedAs t)
            ∧ (closed = false → (s.feeder f).unconfirmed ≠ some .ladder → t.permit i = { gen := nextGen p.gen })
            ∧ (closed = true → (s.feeder f).unconfirmed ≠ none → (t.permit i).state = .unverified
              ∧ (t.permit i).lastDraw = draw ∧ (t.permit i).requested = p.requested)
            ∧ (closed = true → (s.feeder f).unconfirmed = none → (t.permit i).state = .granted
              ∧ (t.permit i).lastDraw = draw ∧ (t.permit i).requested = p.requested ∧ (t.permit i).released = p.released
              ∧ ((s.took c).seHolds f = false → .orderPlacement
                { target := .feeder f, order := .grant ⟨i.val, p.gen⟩ p.released false, owner := .ae, urgent := false } ∈ t.events))
            ∧ (closed = false → (t.feeder f).unconfirmed = none))
        ∧ (p.state = .queued ∨ p.state = .shed → ∃ t, exec c s = .next t ∧ s.onlyAdmission t
            ∧ (closed = true → adopts → (t.permit i).state = .granted ∧ (t.permit i).requested = max 1 draw
              ∧ (t.permit i).released = max 1 draw ∧ (t.permit i).lastDraw = draw ∧ (t.permit i).gen = p.gen
              ∧ (quiet = false → .noticeRaise .unpermittedClose ∈ t.events)
              ∧ (p.state = .shed → (t.feeder f).shedSeconds =
                min 65535 ((s.feeder f).shedSeconds + (s.clock - p.shedAt) / 1000)))
            ∧ (¬ (closed = true ∧ adopts) → (t.permit i).state = p.state ∧ (t.permit i).lastDraw = draw
              ∧ (t.permit i).requested = p.requested ∧ t.feeder f = s.feeder f))
        ∧ (p.state = .staging ∨ (closed = true ∧ (p.state = .granted ∨ p.state = .revoking)) → ∃ t, exec c s = .next t
            ∧ (t.permit i).overdraw = (if draw = p.lastDraw then p.overdraw
              else decide (p.released * (100 + s.setting .overdrawTolerance) < draw * 100))
            ∧ ((t.permit i).overdraw = true → p.overdraw = false → .noticeRaise .overdraw ∈ t.events))

/-- A feeder's answer to a GRANT, behind its report of a CLOSED breaker, or of STAGING, in contact: an accepted release GRANT is
counted, the released kW raised to its figure but no more than the requested, GRANTED once STAGING is fully released, the
release in flight to it ended, the step guard started and the overdraw mark judged (R37, R21); a refused one that was the
release in flight ends it and starts the guard (R38), and any other refused one changes nothing. An answer to a confirming
GRANT changes no record, accepted or refused (R39). An accepted release GRANT for a handle that is not live ends the release in
flight uncounted (R38). A feeder that returns from SILENT with its permit on the Release List has the lists served, ahead of its
report (R40, R175). The model's own: the AE notes at placing which GRANT is a release, and counts each that is accepted (log
46); a refusal is of the release in flight where handle and kW are equal (log 71); a release in flight to another permit goes
on (log 63); the next release looks at what is on its way (log 7). -/
def Obligations.FeederAnswersCountOrEndTheRelease : Prop :=
  ∀ (s : State) (d : FeederDelivery), s.inReset = false → s.listsExact → d.report.draw ≤ 16000 →
    let c := Instr.aeReplyDelivery d
    let f := d.feeder
    let guarded : Timer := some (s.setting .stepGuard * 100)
    (∀ i h kw release a, d.was ≠ .silent → d.answer = some a → a.sent.order = .grant h kw release → s.live h = some i →
        s.permitOf f = some i → (s.permit i).holder = some (.feeder f) →
        (s.permit i).state = .staging
          ∨ (d.report.closed = true ∧ ((s.permit i).state = .granted ∨ (s.permit i).state = .revoking)) →
        let p := s.permit i
        let released := max p.released (min kw p.requested)
        let unchanged (t : State) : Prop := (t.permit i).state = p.state ∧ (t.permit i).released = p.released
          ∧ (t.permit i).requested = p.requested ∧ (t.permit i).lastDraw = d.report.draw
        ∃ t, exec c s = .next t ∧ s.onlyAdmission t ∧ s.otherPermits t i
        ∧ (release = true → a.accepted = true →
            (t.permit i).released = released ∧ (t.permit i).requested = p.requested
            ∧ (t.permit i).state = (if p.state = .staging ∧ released = p.requested then .granted else p.state)
            ∧ (t.permit i).lastDraw = d.report.draw
            ∧ (t.permit i).overdraw = decide (released * (100 + s.setting .overdrawTolerance) < d.report.draw * 100)
            ∧ t.ae.stepGuard = guarded ∧ t.ae.inFlight = (if s.flightTo i then none else s.ae.inFlight))
        ∧ (release = false → unchanged t ∧ t.ae.stepGuard = s.ae.stepGuard ∧ t.ae.inFlight = s.ae.inFlight)
        ∧ (release = true → a.accepted = false → s.ae.inFlight.any (fun x => x.handle == h && x.kw == kw) = true →
            unchanged t ∧ t.ae.stepGuard = guarded ∧ t.ae.inFlight = none)
        ∧ (release = true → a.accepted = false → s.ae.inFlight.any (fun x => x.handle == h && x.kw == kw) = false →
            unchanged t ∧ t.ae.stepGuard = s.ae.stepGuard ∧ t.ae.inFlight = s.ae.inFlight))
      ∧ (∀ h kw a, d.was ≠ .silent → d.answer = some a → a.accepted = true →
          a.sent.order = .grant h kw true → s.live h = none →
          s.permitOf f = none → d.report.closed = false →
          s.ae.inFlight = some { handle := h, feeder := f, kw := kw } → s.ae.stepGuard ≠ none →
          ∃ t, exec c s = .next t ∧ t.ae.inFlight = none ∧ t.ae.stepGuard = s.ae.stepGuard ∧ s.onlyAdmission t)
      ∧ (∀ i j g, d.was = .silent → d.answer = none → s.permitOf f = some i → i ∈ s.ae.releaseList →
          s.ae.stepGuard = none → s.ae.candidate = none → s.ae.waitQueue = [] ∨ s.ic.state ≠ .run ∨ s.ic.standDown = true →
          s.ae.inFlight = none → 0 ≤ s.headroom → 0 < s.stepAcceptance → (s.took c).releaseTarget = some j →
          (s.permit j).holder = some (.feeder g) →
          let q := s.permit j
          let kw := q.released + min (q.requested - q.released) s.stepAcceptance
          let h : Handle := ⟨j.val, q.gen⟩
          ∃ t, exec c s = .next t ∧ s.onlyAdmission t ∧ t.ae.inFlight = some { handle := h, feeder := g, kw := kw }
            ∧ .orderPlacement { target := .feeder g, order := .grant h kw true, owner := .ae, urgent := false } ∈ t.events
            ∧ (t.permit i).lastDraw = d.report.draw ∧ (t.permit i).state = .staging)

/-- Loss of contact at the AE (R45, R65) by the permit's state; another contact state has no effect (log 31). An order that is
gone ends the release in flight where it was that GRANT: with the step guard idle the lists are served at once, while a
running guard keeps a fresh one back (R38, R40); any other order that is gone changes nothing. The SE and the GS keep nothing
of such an order, and an array's ordered cap goes once no order is in its slot, those on their way counted (R113, log 7). -/
def Obligations.ContactLossAndGoneOrdersReachThePermit : Prop :=
  ∀ s : State, s.inReset = false →
    (∀ f now, now ≠ .lost → exec (.aeContactChange f now) s = .next (s.took (.aeContactChange f now)))
      ∧ (∀ f i, s.listsExact → s.permitOf f = some i →
          let p := s.permit i
          ∃ t, exec (.aeContactChange f .lost) s = .next t ∧ s.onlyAdmission t
            ∧ (p.state = .granted → (t.permit i).state = .unverified ∧ (t.permit i).requested = p.requested
                ∧ (t.permit i).released = p.released ∧ (t.permit i).lastDraw = p.lastDraw)
            ∧ (p.state = .staging → 0 < p.released →
                (t.permit i).state = .unverified ∧ (t.permit i).requested = p.released)
            ∧ ((p.state = .staging ∧ p.released = 0) ∨ p.state = .queued → t.permit i = { gen := nextGen p.gen })
            ∧ (p.state = .revoking → (t.permit i).state = .unverified ∧ .noticeRaise .revokeFailed ∈ t.events)
            ∧ (p.state = .shed ∨ p.state = .unverified → t.permit i = p))
      ∧ (∀ h f kw r cause, s.ae.inFlight = some { handle := h, feeder := f, kw := kw } → s.ae.stepGuard ≠ none →
          ∃ t, exec (.supersessionNotice .ae r (.grant h kw true) cause) s = .next t ∧ t.ae.inFlight = none ∧ s.onlyAdmission t)
      ∧ (∀ h f kw r cause i g, let c := Instr.supersessionNotice .ae r (.grant h kw true) cause
          let u := { s.took c with ae := { s.ae with inFlight := none } }
          s.ae.inFlight = some { handle := h, feeder := f, kw := kw } → s.ae.stepGuard = none → s.ae.candidate = none →
          s.ae.waitQueue = [] ∨ s.ic.state ≠ .run ∨ s.ic.standDown = true → 0 ≤ s.headroom → 0 < s.stepAcceptance →
          u.releaseTarget = some i → (s.permit i).holder = some (.feeder g) →
          let p := s.permit i
          let n := p.released + min (p.requested - p.released) s.stepAcceptance
          let k : Handle := ⟨i.val, p.gen⟩
          exec c s = .next { u with
            ae := { s.ae with inFlight := some { handle := k, feeder := g, kw := n } }
            events := (s.took c).events
              ++ [.orderPlacement { target := .feeder g, order := .grant k n true, owner := .ae, urgent := false }] })
      ∧ (∀ r o cause, (∀ h kw, o = .grant h kw true → s.ae.inFlight.any (fun x => x.handle == h && x.kw == kw) = false) →
          exec (.supersessionNotice .ae r o cause) s = .next (s.took (.supersessionNotice .ae r o cause)))
      ∧ (∀ b r o cause, b = .se ∨ b = .gs →
          exec (.supersessionNotice b r o cause) s = .next (s.took (.supersessionNotice b r o cause)))
      ∧ (∀ a o cause, let u := s.took (.supersessionNotice .cu (.array a) o cause)
          u.slotView (.array a) = none → exec (.supersessionNotice .cu (.array a) o cause) s =
            .next (u.setArray a { s.array a with ordered := none }))

/-- Dark entry at the AE frees every permit, so that nothing is charged or measured, empties the lists, the guard, the release in
flight and the AE need, the feeders' permit handles, and each feeder slot of an order of the AE's, no other (R48; the slot is
judged with what is on its way, log 7); leaving SHED adds to the shed seconds (R54). At the SE
it goes to IDLE, drops the naming, the telling of one on its way with it, and places an urgent OPEN for every feeder unit that
is not LOST (R69, R71). -/
def Obligations.DarkEntryClearsPermitsAndOpensFeeders : Prop :=
  ∀ s : State, s.inReset = false →
    (s.listsExact → ∃ t, exec .aeDarkEntry s = .next t
        ∧ (∀ i, t.permit i = if (s.permit i).state = .free then s.permit i else { gen := nextGen (s.permit i).gen })
        ∧ t.ae.waitQueue = [] ∧ t.ae.releaseList = [] ∧ t.se.shedList = [] ∧ t.ae.stepGuard = none ∧ t.ae.inFlight = none
        ∧ t.ae.candidate = none ∧ t.needs = { s.needs with ae := none } ∧ s.onlyAdmission t
        ∧ t.chargedLoad = 0 ∧ t.measuredLoad = 0
        ∧ (let before := (s.took .aeDarkEntry).slotView
          let emptying (f : FeederNo) (o : Order) : Instr :=
            .orderWithdrawal { target := .feeder f, kind := o.kind, by_ := .ae }
          (∀ f o, before (.feeder f) = some (o, .ae) → emptying f o ∈ t.events)
          ∧ ∀ w, .orderWithdrawal w ∈ t.events → .orderWithdrawal w ∈ (s.took .aeDarkEntry).events
            ∨ ∃ f o, before (.feeder f) = some (o, .ae) ∧ .orderWithdrawal w = emptying f o)
        ∧ (s.permitsSingle → ∀ f, (t.feeder f).permit = none
          ∧ ∀ i, s.permitOf f = some i → (s.permit i).state = .shed → (t.feeder f).shedSeconds =
            min 65535 ((s.feeder f).shedSeconds + (s.clock - (s.permit i).shedAt) / 1000)))
      ∧ ∃ t, exec .seDarkEntry s = .next t
        ∧ t = { s with
            events := t.events
            ae := { s.ae with candidate := none }
            se := { s.se with state := .idle, naming := none } }
        ∧ (∀ h, .shedListCandidateNamed h ∉ t.events)
        ∧ ∀ f, s.contactOf (.feeder f) ≠ .lost → t.opens f none

/-! ## Shed Engine -/

/-- SET FEEDER writes class, pickup kW and lockout of one record, and RESET ROTATION clears the shed seconds of one or of all;
what is out of range is refused. No other field and no other record changes, but that clearing a lockout judges the restore
candidate on the record so written: in RUN and RESTORE without stand-down, with the SE IDLE and no naming outstanding, the
candidate whose requested kW and the restore margin headroom covers is named and told to the AE, and nothing is named elsewhere
(R52, R55, R68). -/
def Obligations.SetFeederAndResetRotationWriteTheirFields : Prop :=
  ∀ s : State, s.inReset = false →
    (∀ feeder cls pickup lockout, let c := Instr.setFeeder feeder cls pickup lockout
      (24 ≤ feeder ∨ 3 < cls ∨ 16000 < pickup → exec c s = .next ((s.took c).repliedRefused 0x24 .outOfRange))
      ∧ (∀ f : FeederNo, feeder = f.val → cls ≤ 3 → pickup ≤ 16000 → ∃ t, exec c s = .next t
        ∧ t.feeder f = { s.feeder f with cls := cls, pickup := pickup, lockout := lockout }
        ∧ (∀ g, g ≠ f → t.feeder g = s.feeder g)
        ∧ t = { s.replied 0x24 [] with
            events := t.events
            ae := { s.ae with candidate := t.ae.candidate }
            se := { s.se with feeders := t.se.feeders, naming := t.se.naming } }
        ∧ ((s.feeder f).lockout = false ∨ lockout = true →
            t = { s.replied 0x24 [] with
              events := (s.took c).events, se := { s.se with feeders := t.se.feeders } })
        ∧ ((s.feeder f).lockout = true → lockout = false →
            let u := s.took c
            let written : State :=
              (u.setFeeder f { s.feeder f with cls := cls, pickup := pickup, lockout := lockout }).replied 0x24 []
            let judged : Prop := s.active = true ∧ s.ic.standDown = false ∧ s.se.state = .idle ∧ s.se.naming = none
            let wanted (k : Slot) : Int := (s.permit k).requested + s.setting .restoreMargin
            (∀ k, judged → written.restoreCandidate = some k → wanted k ≤ s.headroom →
              let h : Handle := ⟨k.val, (s.permit k).gen⟩
              exec c s = .next { written with
                se := { written.se with naming := some h }, ae := { s.ae with candidate := some h }
                events := u.events ++ [.shedListCandidateNamed h] })
            ∧ (¬ judged ∨ written.restoreCandidate = none
                ∨ (∃ k, written.restoreCandidate = some k ∧ s.headroom < wanted k) → exec c s = .next written))))
      ∧ (∀ feeder, let c := Instr.resetRotation feeder
        (24 ≤ feeder → feeder ≠ 255 → exec c s = .next ((s.took c).repliedRefused 0x26 .outOfRange))
        ∧ (∀ f : FeederNo, feeder = f.val → exec c s = .next
            (((s.took c).setFeeder f { s.feeder f with shedSeconds := 0 }).replied 0x26 []))
        ∧ (feeder = 255 → ∃ t, exec c s = .next t ∧ (∀ f, t.feeder f = { s.feeder f with shedSeconds := 0 })
          ∧ t = { (s.took c).replied 0x26 [] with se := { s.se with feeders := t.se.feeders } }))

/-- The SE's state after a balance update and after an island state is told (R53, R56, R57): with headroom at least 0, or in
SETUP, DARK and RESTART, it is IDLE; below 0 in RUN and RESTORE it is SHEDDING or EXHAUSTED. The ladder holds the GRANTED and
STAGING permits of class 1 to 3 whose unit is IN CONTACT and whose LOCAL flag is clear, each once, by class descending, then
shed seconds ascending, then feeder number ascending (R53). With a net shortfall the shortest beginning of the ladder whose
charges cover it is revoked, each permit REVOKING for LADDER with its OPEN, or SHED at once where it is STAGING with nothing
released and nothing in flight (R59); where the whole ladder does not cover it the whole is, and the SE is EXHAUSTED, with
LADDER EXHAUSTED where it was not. No other permit changes, so none of class 0. A release in flight to a permit so revoked ends
with it (R38); where one is in flight the lists may be served after it, and the statement is then about states in which no
candidate and no Wait Queue head can be taken. The SE tells the IC once on leaving IDLE and once on returning to it, and not
elsewhere (R56, R152). The candidate that an island state told to an IDLE SE may have named is the
model's choice (log 87). -/
def Obligations.ShedStateFollowsHeadroomAndTakesTheLadderInOrder : Prop :=
  ∀ (s : State) (c : Instr), c = .seBalanceUpdate ∨ (∃ n, c = .seIslandState n) → s.inReset = false →
    let net := s.netShortfall
    let charges (l : List Slot) : Int := (sumOver (fun i => (s.permit i).charge) l : Nat)
    let rests : Prop := s.ae.candidate = none ∧ (s.ae.waitQueue = [] ∨ s.ic.state ≠ .run ∨ s.ic.standDown = true)
    let atOnce (i : Slot) : Prop :=
      (s.permit i).state = .staging ∧ (s.permit i).released = 0 ∧ s.flightTo i = false
    let revoked (t : State) (l : List Slot) : Prop :=
      (∀ i, i ∉ l → t.permit i = s.permit i)
        ∧ ∀ i ∈ l, ∀ f, (s.permit i).holder = some (.feeder f) →
          (atOnce i → (t.permit i).state = .shed
            ∧ (t.permit i).shedAt = s.clock ∧ (t.permit i).requested = (s.permit i).requested
            ∧ .orderWithdrawal { target := .feeder f, kind := .grant, by_ := .se } ∈ t.events)
          ∧ (¬ atOnce i → s.revokingFor t i f .ladder)
          ∧ (s.flightTo i = true → (s.permit i).state = .staging → s.ae.stepGuard ≠ none → t.ae.inFlight = none)
    (∀ i, i ∈ s.ladder ↔ ∃ f, (s.permit i).holder = some (.feeder f) ∧ 1 ≤ (s.permit i).cls
        ∧ ((s.permit i).state = .granted ∨ (s.permit i).state = .staging)
        ∧ s.contactOf (.feeder f) = .inContact ∧ (s.feeder f).isLocal = false)
      ∧ s.ladder.Nodup
      ∧ (∀ i j : Nat, i < j → ∀ a, s.ladder[i]? = some a → ∀ b, s.ladder[j]? = some b →
          ∀ f, (s.permit a).holder = some (.feeder f) → ∀ g, (s.permit b).holder = some (.feeder g) →
          (s.permit b).cls < (s.permit a).cls
          ∨ ((s.permit a).cls = (s.permit b).cls ∧ ((s.feeder f).shedSeconds < (s.feeder g).shedSeconds
            ∨ ((s.feeder f).shedSeconds = (s.feeder g).shedSeconds ∧ f ≤ g))))
      ∧ ∃ t, exec c s = .next t ∧ s.onlyAdmission t
        ∧ (s.active = false ∨ 0 ≤ s.headroom → t.se.state = .idle ∧ ∀ i, t.permit i = s.permit i)
        ∧ (∀ idle : Bool, t.events.count (.seIdleTelling idle) = (s.took c).events.count (.seIdleTelling idle)
          + if (s.se.state == .idle) ≠ idle ∧ (t.se.state == .idle) = idle then 1 else 0)
        ∧ (s.active = true → s.headroom < 0 →
            (net ≤ 0 → t.se.state = .shedding ∧ ∀ i, t.permit i = s.permit i)
            ∧ (s.ae.inFlight = none ∨ rests → 0 < net →
              (∀ k, net ≤ charges (s.ladder.take k) → (∀ j < k, charges (s.ladder.take j) < net) →
                t.se.state = .shedding ∧ revoked t (s.ladder.take k))
              ∧ (charges s.ladder < net → t.se.state = .exhausted ∧ revoked t s.ladder
                ∧ (s.se.state ≠ .exhausted → .noticeRaise .ladderExhausted ∈ t.events)))
            ∧ (∀ i l x, 0 < net → s.ladder = i :: l → s.ae.inFlight = some x → x.handle = ⟨i.val, (s.permit i).gen⟩ →
                (s.permit i).state = .staging → s.ae.stepGuard ≠ none → t.ae.inFlight = none))

/-- Every feeder report sets the record's breaker state and LOCAL flag, in every island state, and a CLOSED one in DARK or
RESTART, and in RESTORE one of a feeder with no running permit whose entry the walk has not reached, is answered with an
urgent OPEN unless the slot holds one, what is on its way counted (R44, R51, R72, log 7). A refusal of an OPEN sets LOCAL; the
permit whose running revocation it was, the report's breaker CLOSED, is FREE with nothing released, and else GRANTED again at
no more than the released kW; a refused OPEN of an earlier revocation, or of none, changes no permit (R62; the OPEN names its
revocation inside the model, log 49; a reselection follows the LOCAL change, log 54). With the SE IDLE a LOCAL change makes no
judgement, also with headroom below 0: that R56's judging on R58's events is meant of SHEDDING and EXHAUSTED is the model's
reading (log 72). A unit that is LOST leaves its breaker state UNKNOWN and its flag as it was, and SILENT leaves both (R51). -/
def Obligations.ReportsAndLossSetTheFeederRecord : Prop :=
  ∀ s : State, s.inReset = false →
    (∀ d : FeederDelivery, (∀ a, d.answer = some a → a.accepted = true ∨ a.sent.order.kind ≠ .open_) →
        let c := Instr.seReplyDelivery d
        ∃ t, exec c s = .next t ∧ s.onlyAdmission t
        ∧ (t.feeder d.feeder).breaker = (if d.report.closed then .closed else .open_)
        ∧ (t.feeder d.feeder).isLocal = d.report.isLocal
        ∧ (∀ g, g ≠ d.feeder → (t.feeder g).breaker = (s.feeder g).breaker ∧ (t.feeder g).isLocal = (s.feeder g).isLocal)
        ∧ (s.ic.state = .dark ∨ s.ic.state = .restart → d.report.closed = true →
            (s.took c).openHeld d.feeder = false → t.opens d.feeder none)
        ∧ (s.ic.state = .restore → d.was = .inContact → d.report.closed = true → (s.took c).openHeld d.feeder = false →
            (∀ i, s.permitOf d.feeder = some i → (s.permit i).state = .queued ∨ (s.permit i).state = .shed) →
            (∀ e ∈ s.ic.restoreList.take (s.ic.walkPointer + 1), e.feeder ≠ d.feeder) → t.opens d.feeder none))
      ∧ (∀ (d : FeederDelivery) a o, d.answer = some a → a.accepted = false → a.sent.order = .open_ o →
          let f := d.feeder
          let own (i : Slot) : Prop := s.permitOf f = some i ∧ o = some ⟨i.val, (s.permit i).gen⟩
            ∧ (s.permit i).state = .revoking ∧ d.report.closed = true
          ∃ t, exec (.seReplyDelivery d) s = .next t ∧ s.onlyAdmission t ∧ (t.feeder f).isLocal = true
          ∧ (t.feeder f).breaker = (if d.report.closed then .closed else .open_)
          ∧ (∀ i, own i → (s.permit i).holder = some (.feeder f) →
              ((s.permit i).released = 0 → t.permit i = { gen := nextGen (s.permit i).gen })
              ∧ (0 < (s.permit i).released → (t.permit i).state = .granted
                ∧ (t.permit i).released = (s.permit i).released
                ∧ (t.permit i).requested = min (s.permit i).requested (s.permit i).released))
          ∧ ((∀ i, ¬ own i) → s.se.state = .idle → ∀ j, t.permit j = s.permit j))
      ∧ (∀ f now, ∃ t, exec (.seContactChange f now) s = .next t ∧ s.onlyAdmission t
        ∧ (t.feeder f).breaker = (if now = .lost then .unknown else (s.feeder f).breaker)
        ∧ (t.feeder f).isLocal = (s.feeder f).isLocal
        ∧ (∀ g, g ≠ f → (t.feeder g).breaker = (s.feeder g).breaker ∧ (t.feeder g).isLocal = (s.feeder g).isLocal))

/-! ## Genset Sequencer -/

/-- SET GENSET and WRITE STEP (R74, R83): what is out of range, in use, of a merit already held or in a busy slot is refused and
changes nothing; a profile or a step taken is written whole, a first definition with UNKNOWN, no attempts and the pointer at
its primary slot; a rated kW of 0 removes the definition, whatever the other fields (log 21). OUT OF RANGE ahead of PROTECTED,
and PROTECTED ahead of CONFIG, are the model's order of the tests (log 43); a removed genset waits in no queue (log 38). -/
def Obligations.SetGensetAndWriteStepWriteWholeRecords : Prop :=
  ∀ s : State, s.inReset = false →
    (∀ (n : Nat) (p : ProfileFields), let c := Instr.setGenset n p
      let refused (r : Reason) : State := (s.took c).repliedRefused 0x30 r
      let fields : Prop := p.rated ≤ 16000 ∧ p.minimum ≤ p.rated ∧ p.step ≤ p.rated ∧ p.merit ≤ 5 ∧ p.primary < 8
        ∧ (∀ d, p.dark = some d → d < 8) ∧ 1 ≤ p.maxAttempts ∧ p.maxAttempts ≤ 4 ∧ p.minRun ≤ 7200 ∧ p.coolDown ≤ 1800
      (6 ≤ n → exec c s = .next (refused .outOfRange))
      ∧ (∀ g : GensetNo, n = g.val →
          let r := s.genset g
          let inUse : Prop := r.state = .starting ∨ r.state = .online ∨ r.state = .stopping
          let meritHeld : Prop := ∃ k, k ≠ g ∧ ∃ q, (s.genset k).profile = some q ∧ q.merit = p.merit
          (p.rated = 0 → inUse → exec c s = .next (refused .protected_))
          ∧ (p.rated = 0 → ¬ inUse → s.laneOf g = none → ∃ t, exec c s = .next t
            ∧ t.genset g = { r with profile := none, state := .unknown, attempts := 0, rest := none }
            ∧ t.queued g = false ∧ State.onlySequencer (s.replied 0x30 []) t)
          ∧ (p.rated ≠ 0 → ¬ fields → exec c s = .next (refused .outOfRange))
          ∧ (p.rated ≠ 0 → fields → inUse → exec c s = .next (refused .protected_))
          ∧ (p.rated ≠ 0 → fields → ¬ inUse → s.ic.state ≠ .setup → meritHeld → exec c s = .next (refused .config))
          ∧ (∀ q : Profile, p.rated ≠ 0 → fields → ¬ inUse → s.ic.state = .setup ∨ ¬ meritHeld →
              q.rated = p.rated ∧ q.minimum = p.minimum ∧ q.step = p.step ∧ q.merit = p.merit ∧ q.primary.val = p.primary
                ∧ q.dark.map Fin.val = p.dark ∧ q.maxAttempts = p.maxAttempts ∧ q.minRun = p.minRun
                ∧ q.coolDown = p.coolDown →
              exec c s = .next (((s.took c).setGenset g
                (if r.profile = none
                  then { r with profile := some q, state := .unknown, attempts := 0, pointer := slotStart q.primary }
                  else { r with profile := some q })).replied 0x30 []))))
    ∧ (∀ slot step kind arg limit : Nat, let c := Instr.writeStep slot step kind arg limit
      let refused (r : Reason) : State := (s.took c).repliedRefused 0x31 r
      let fields : Prop := slot < 8 ∧ step < 16 ∧ kind < 8 ∧ 1 ≤ limit ∧ limit ≤ 65535
        ∧ (kind = 2 → 1 ≤ arg ∧ arg ≤ 4) ∧ (kind = 7 → 10 ≤ arg ∧ arg ≤ 100)
      let busy : Prop := ∃ l q, s.run l = some q
        ∧ ((s.genset q.genset).pointer.val / 16 = slot ∨ ∃ f, q.inFlight = some f ∧ f.pos.val / 16 = slot)
      (¬ fields → exec c s = .next (refused .outOfRange))
      ∧ (fields → busy → exec c s = .next (refused .slotBusy))
      ∧ (∀ (pos : Fin 128) (k : StepKind), fields → ¬ busy → pos.val = 16 * slot + step → k.code = byteOf kind →
          exec c s = .next (State.replied
            { s.took c with gs := { s.gs with store := s.gs.store.set pos { kind := k, arg := arg, limit := limit } } }
            0x31 [])))

/-- START and ABORT START (R84, R85, R87, R89, R100, R101, R109): their refusals, in the model's order (log 43); a genset taken by
START stands at the queue's head with origin STATION while both lanes are taken, and with none queued it is STARTING in the first
IDLE lane, A, or B where A is taken, HELD on a report without READY, else with its first step, a WAIT, in flight, a rest timer
that runs kept (log 70); ABORT START takes it out of the queue, ends its run with an urgent STOP, owed until the unit accepts it
(R96, log 69), and no attempt counted, OFF even where its attempts are used up (log 17), with ABORTED kept as its cause (log 50),
or leaves a lane that has ordered its close ABORTING; the lane that it frees, A or B, takes the queue's head on the same event,
here a STATION entry HELD on a report without READY, the other lane taken and not in TOKEN WAIT, lanes and queue consistent (R85,
R87, R88); a genset that is ONLINE already stays so. -/
def Obligations.StartAndAbortStart : Prop :=
  ∀ (s : State) (n : Nat), s.inReset = false →
    let a := Instr.start n
    let b := Instr.abortStart n
    (6 ≤ n → exec a s = .next ((s.took a).repliedRefused 0x32 .outOfRange)
        ∧ exec b s = .next ((s.took b).repliedRefused 0x34 .outOfRange))
      ∧ (s.active = false → n < 6 → exec a s = .next ((s.took a).repliedRefused 0x32 .notRunning))
      ∧ (s.active = true → s.ic.standDown = true → n < 6 → exec a s = .next ((s.took a).repliedRefused 0x32 .standDown))
      ∧ (∀ g : GensetNo, n = g.val → s.active = true → s.ic.standDown = false →
          let r := s.genset g
          (r.profile = none ∨ r.state ≠ .off → exec a s = .next ((s.took a).repliedRefused 0x32 .wrongState))
          ∧ (r.profile ≠ none → r.state = .off → s.gs.laneA ≠ none → s.gs.laneB ≠ none →
              exec a s = .next (State.replied
                { s.took a with gs := { s.gs with
                  queue := { genset := g, origin := .station } :: s.gs.queue.filter fun e => e.genset != g } } 0x32 [1]))
          ∧ (∀ l, r.profile ≠ none → r.state = .off → s.run l = none → (l = .b → s.gs.laneA ≠ none) → s.gs.queue = [] →
              let start := r.runStart .station
              let takes (t : State) : Prop := t.gs.queue = [] ∧ (∀ l', l' ≠ l → t.run l' = s.run l')
                ∧ State.onlySequencer (s.replied 0x32 [2]) t
              (r.report.ready = false → ∃ t, exec a s = .next t ∧ takes t ∧ s.takenHeld t l g .station r)
              ∧ (r.report.ready = true → (s.gs.store[start]).kind = .wait → ∃ t, exec a s = .next t ∧ takes t
                ∧ t.genset g = { r with state := .starting, pointer := start + 1 }
                ∧ t.run l = some { genset := g, origin := .station, state := .stepping
                                   inFlight := some { pos := start, step := s.gs.store[start] }
                                   stepTimer := some (tenths (s.gs.store[start]).limit) })))
      ∧ (∀ g : GensetNo, n = g.val →
          let r := s.genset g
          (s.outside g → exec b s = .next ((s.took b).repliedRefused 0x34 .wrongState))
          ∧ (s.queued g = true → s.noLaneFree → ∃ t, exec b s = .next t
            ∧ t.gs.queue = s.gs.queue.filter (fun e => e.genset != g) ∧ t.gs.gensets = s.gs.gensets
            ∧ t.gs.laneA = s.gs.laneA ∧ t.gs.laneB = s.gs.laneB
            ∧ State.onlySequencer (s.replied 0x34 [r.state.code]) t)
          ∧ (∀ l q, s.queued g = false → s.laneOf g = some l → s.run l = some q → q.state ≠ .aborting → r.state = .online →
              (∀ l' q', s.run l' = some q' → q'.genset = g → l' = l) → ∃ t, exec b s = .next t ∧ t.genset g = r
                ∧ (s.starts = false → t.run l = none) ∧ .noticeRaise .startFailed ∈ t.events
                ∧ State.onlySequencer (s.replied 0x34 [3]) t)
          ∧ (∀ l q, s.queued g = false → s.laneOf g = some l → s.run l = some q → q.state = .aborting → s.noLaneFree →
              exec b s = .next ((s.took b).replied 0x34 [r.state.code]))
          ∧ (∀ l q, s.queued g = false → s.laneOf g = some l → s.run l = some q → q.state ≠ .aborting → r.state ≠ .online →
              (q.closeOrdered = false → (∀ l' q', s.run l' = some q' → q'.genset = g → l' = l) → ∃ t, exec b s = .next t
                ∧ t.genset g = { r with
                    state := .off, rest := some (secs (s.setting .restAfterFailure)), cause := some .aborted
                    stopOwed := true }
                ∧ (∀ k rest, s.lanesConsistent → s.starts = true → (∀ l', l' ≠ l → ∃ q', s.run l' = some q' ∧ q'.state ≠ .tokenWait) →
                    s.gs.queue = { genset := k, origin := .station } :: rest → (s.genset k).report.ready = false →
                    s.takenHeld t l k .station (s.genset k))
                ∧ .orderPlacement { target := .genset g, order := .stop, owner := .gs, urgent := true } ∈ t.events
                ∧ .noticeRaise .startFailed ∈ t.events ∧ State.onlySequencer (s.replied 0x34 [1]) t)
              ∧ (q.closeOrdered = true → s.noLaneFree → ∃ t, exec b s = .next t
                ∧ t.run l = some { q with state := .aborting } ∧ t.gs.gensets = s.gs.gensets
                ∧ State.onlySequencer (s.replied 0x34 [r.state.code]) t)))

/-- STOP and the stop sequence (R105, R106, R108): STOP's refusals, in the model's order (log 43); a stop decided, by STOP or at
the end of the stop delay for the candidate that still meets the condition, leaves the genset STOPPING in UNLOADING with an
UNLOAD, a rest timer that runs kept (log 70); a taken STOP leaves the stop delay idle with no candidate, whichever genset it ran
for, since the condition fails while a genset is STOPPING (R104, R108); where the condition fails by the end of the delay, the
delay returns to idle and nothing is stopped (R105); the phase limit passes UNLOADING to OPENING with OPEN
BREAKER, and OPENING and SHUTTING to SHUTTING with an urgent STOP; the cool-down's end passes to SHUTTING with a routine STOP. -/
def Obligations.StopIsDecidedAndPassesThroughItsPhases : Prop :=
  ∀ (s : State) (g : GensetNo), s.inReset = false →
    let r := s.genset g
    let ordered (t : State) (o : Order) (u : Bool) : Prop :=
      .orderPlacement { target := .genset g, order := o, owner := .gs, urgent := u } ∈ t.events
    let decided (t : State) : Prop :=
      t.genset g = { r with state := .stopping, phase := some .unloading, minRun := none, phaseLimit := some 60000 }
        ∧ ordered t .unload false
    let shutting (t : State) (u : Bool) : Prop :=
      t.genset g = { r with phase := some .shutting, coolDown := none, phaseLimit := some 60000 } ∧ ordered t .stop u
    (∀ n force, let c := Instr.stop n force
      (6 ≤ n → exec c s = .next ((s.took c).repliedRefused 0x33 .outOfRange))
      ∧ (n = g.val →
          (s.active = false → exec c s = .next ((s.took c).repliedRefused 0x33 .notRunning))
          ∧ (s.active = true → r.state ≠ .online → exec c s = .next ((s.took c).repliedRefused 0x33 .wrongState))
          ∧ (s.active = true → r.state = .online → s.laneOf g ≠ none →
              exec c s = .next ((s.took c).repliedRefused 0x33 .targetBusy))
          ∧ (s.active = true → r.state = .online → s.laneOf g = none → force = false → s.headroom < (r.rated : Int) →
              exec c s = .next ((s.took c).repliedRefused 0x33 .noHeadroom))
          ∧ (s.active = true → r.state = .online → s.outside g → force = true ∨ (r.rated : Int) ≤ s.headroom →
              ∃ t, exec c s = .next t ∧ decided t ∧ t.gs.stopDelay = none ∧ t.gs.stopCandidate = none
                ∧ State.onlySequencer (s.replied 0x33 []) t)))
      ∧ (s.gs.stopDelay ≠ none → s.gs.stopCandidate = some g → s.stopHolds = some g → r.state = .online →
          ∃ t, exec .stopDelayExpiry s = .next t ∧ decided t ∧ t.gs.stopDelay = none ∧ s.onlySequencer t)
      ∧ (s.gs.stopDelay ≠ none → s.gs.stopCandidate = some g → s.stopHolds = none → s.queueRests →
          exec .stopDelayExpiry s = .next { s.took .stopDelayExpiry with
            gs := { s.gs with stopDelay := none, stopCandidate := none } })
      ∧ (s.gs.stopDelay = none → exec .stopDelayExpiry s = .next (s.took .stopDelayExpiry))
      ∧ (r.state = .stopping → r.phaseLimit ≠ none → s.outside g → ∃ t, exec (.phaseLimitExpiry g) s = .next t
          ∧ s.onlySequencer t
          ∧ (r.phase = some .unloading → t.genset g = { r with phase := some .opening, phaseLimit := some 60000 }
              ∧ ordered t .openBreaker false)
          ∧ (r.phase = some .opening ∨ r.phase = some .shutting → shutting t true))
      ∧ (r.state = .stopping → r.coolDown ≠ none → s.outside g → ∃ t, exec (.coolDownExpiry g) s = .next t
          ∧ shutting t false ∧ s.onlySequencer t)
      ∧ (r.phaseLimit = none → exec (.phaseLimitExpiry g) s = .next (s.took (.phaseLimitExpiry g)))
      ∧ (r.coolDown = none → exec (.coolDownExpiry g) s = .next (s.took (.coolDownExpiry g)))

/-- CLEAR FAILED, LOCK OUT and UNLOCK (R80, R81), and the rest and min-run timers (R104, R110): each writes its own genset's
record as its rule says, and is refused or does nothing elsewhere. With no lane free CLEAR FAILED and a rest timer's end change
nothing more of the gensets; with lane A IDLE and no genset queued the judgement of demand that follows them has lane A take the
first eligible genset where it alone covers what is wanted, here HELD on a report without READY (R86, R87). The end of a min-run
timer has the stop condition judged (R104): the stop delay starts, is kept or is abandoned, for a changed candidate a fresh one
starting in the same judgement, the model's choice (log 57). -/
def Obligations.ClearLockUnlockAndGensetTimers : Prop :=
  ∀ (s : State) (g : GensetNo), s.inReset = false →
    let r := s.genset g
    let n := g.val
    (∀ k, 6 ≤ k → exec (.clearFailed k) s = .next ((s.took (.clearFailed k)).repliedRefused 0x35 .outOfRange)
        ∧ exec (.lockOut k) s = .next ((s.took (.lockOut k)).repliedRefused 0x36 .outOfRange)
        ∧ exec (.unlock k) s = .next ((s.took (.unlock k)).repliedRefused 0x37 .outOfRange))
      ∧ (∀ q, r.state = .failed ∨ r.state = .off → r.profile = some q → s.noLaneFree → ∃ t, exec (.clearFailed n) s = .next t
          ∧ t.gs.gensets = s.gs.gensets.set g
            { r with state := .off, attempts := 0, rest := none, pointer := slotStart q.primary }
          ∧ State.onlySequencer (s.replied 0x35 []) t)
      ∧ (r.state ≠ .failed → r.state ≠ .off →
          exec (.clearFailed n) s = .next ((s.took (.clearFailed n)).repliedRefused 0x35 .wrongState))
      ∧ (r.profile ≠ none → r.state = .off ∨ r.state = .failed ∨ r.state = .unknown → s.laneOf g = none →
          ∃ t, exec (.lockOut n) s = .next t ∧ t.genset g = { r with state := .locked, rest := none } ∧ t.queued g = false
            ∧ State.onlySequencer (s.replied 0x36 []) t)
      ∧ (r.profile ≠ none → r.state = .locked → exec (.lockOut n) s = .next ((s.took (.lockOut n)).replied 0x36 []))
      ∧ (r.profile = none ∨ r.state = .starting ∨ r.state = .online ∨ r.state = .stopping →
          exec (.lockOut n) s = .next ((s.took (.lockOut n)).repliedRefused 0x36 .wrongState))
      ∧ (r.state = .locked →
          exec (.unlock n) s = .next (((s.took (.unlock n)).setGenset g { r with state := .unknown }).replied 0x37 []))
      ∧ (r.state ≠ .locked → exec (.unlock n) s = .next ((s.took (.unlock n)).repliedRefused 0x37 .wrongState))
      ∧ (r.rest ≠ none → s.noLaneFree → ∃ t, exec (.restTimerExpiry g) s = .next t
          ∧ t.gs.gensets = s.gs.gensets.set g { r with rest := none } ∧ s.onlySequencer t)
      ∧ (r.rest = none → exec (.restTimerExpiry g) s = .next (s.took (.restTimerExpiry g)))
      ∧ (∀ x c k rest, (c = .restTimerExpiry g ∧ r.rest ≠ none ∧ x = { r with rest := none })
            ∨ (∃ q, c = .clearFailed n ∧ (r.state = .failed ∨ r.state = .off) ∧ r.profile = some q
              ∧ x = { r with state := .off, attempts := 0, rest := none, pointer := slotStart q.primary }) →
          let u := s.setGenset g x
          s.starts = true → s.gs.laneA = none → s.gs.queue = [] → s.covered < s.capacityWanted → u.eligibles = k :: rest →
          s.capacityWanted ≤ s.covered + (u.genset k).rated → (u.genset k).report.ready = false →
          ∃ t, exec c s = .next t ∧ u.takenHeld t .a k .demand (u.genset k) ∧ t.gs.queue = []
            ∧ t.gs.laneB = s.gs.laneB ∧ ∀ j, j ≠ k → t.genset j = u.genset j)
      ∧ (r.minRun ≠ none → r.state = .online → s.outside g → ∃ t, exec (.minRunExpiry g) s = .next t
          ∧ t.genset g = { r with minRun := some 0 } ∧ s.onlySequencer t)
      ∧ (r.minRun ≠ none → ∃ t, exec (.minRunExpiry g) s = .next t ∧ s.onlySequencer t ∧ s.stopJudged t)
      ∧ (r.minRun = none → exec (.minRunExpiry g) s = .next (s.took (.minRunExpiry g)))

/-- A genset's report outside the lanes (R75 to R78, R106, R107) is recorded, settles an UNKNOWN genset that is defined, trips an
ONLINE or a STOPPING one, and ends the phase of a STOPPING one that waits for it: UNLOADING to OPENING, a breaker that is OPEN to
COOLING, or with a cool-down time of 0 to SHUTTING, and SHUTTING to OFF; the refusal of a phase's order ends the phase as its
limit does, told by the order alone (log 91). Of an OFF, a FAILED and a LOCKED genset it sets the last report alone, whatever it
shows (R75, R76). The STOP that a failed run has left an OFF genset is placed again, urgent, where the unit refuses it, and owed
no more where it accepts it (R96); while a newer order of the GS is in the slot its answer changes nothing, as any other answer
(log 69). LOST makes an ONLINE, OFF or STOPPING genset UNKNOWN (R79, R107), and another contact state leaves everything (log 31).
A report passes one phase on (log 30). Of an OFF genset that waits in the Start Queue, no lane being free, a report sets the last
report alone and the queue stays, and LOST makes it UNKNOWN and takes it out of the queue, the other entries in their order (R75,
R79, R85). A rest timer that runs is kept by an UNKNOWN genset found on the bus and by one that
STOPPING leaves OFF, the model's choice (log 70). -/
def Obligations.GensetReportsAndContactOutsideTheLanes : Prop :=
  (∀ (s : State) (d : GensetDelivery), s.inReset = false → s.outside d.genset →
    let g := d.genset
    let r := { s.genset g with report := d.report }
    let found := d.report.running && d.report.closed && !d.report.tripped
    let lost (n : Nat) : Prop := n ≤ r.attempts
    let rested : Timer := some (secs (s.setting .restAfterFailure))
    let tells (x : Genset) (p : State → Prop) : Prop :=
      ∃ t, exec (.gsReplyDelivery d) s = .next t ∧ t.genset g = x ∧ s.onlySequencer t ∧ p t
    let becomes (x : Genset) : Prop := tells x fun _ => True
    let opening : Genset := { r with phase := some .opening, phaseLimit := some 60000 }
    let shutting : Genset := { r with phase := some .shutting, coolDown := none, phaseLimit := some 60000 }
    let stopped : Genset := { r with phase := none, coolDown := none, phaseLimit := none }
    (d.answer = none → (r.state = .failed ∨ r.state = .locked → becomes r)
      ∧ (r.state = .off → s.queueRests → becomes r)
      ∧ (r.state = .online → d.report.tripped = false → d.report.closed = true → becomes r)
      ∧ (r.state = .online → d.report.tripped = true ∨ d.report.closed = false →
          becomes { r with state := .off, minRun := none, rest := rested }
            ∧ ∀ t, exec (.gsReplyDelivery d) s = .next t → .noticeRaise .gensetTripped ∈ t.events)
      ∧ (∀ q, r.state = .unknown → r.profile = some q →
          (found = true → s.active = true →
            becomes { r with state := .online, minRun := some (secs q.minRun), stopOwed := false })
          ∧ (found = true → s.active = false → becomes r)
          ∧ (found = false → lost q.maxAttempts → becomes { r with state := .failed })
          ∧ (found = false → ¬ lost q.maxAttempts → s.noLaneFree → becomes { r with state := .off }))
      ∧ (r.state = .unknown → r.profile = none → becomes r)
      ∧ (r.state = .stopping → r.phase = some .shutting → d.report.tripped = false → d.report.running = false →
          s.noLaneFree → becomes { r with state := .off, phase := none, coolDown := none, phaseLimit := none })
      ∧ (∀ q, r.state = .stopping → r.phase = some .unloading → d.report.tripped = false → d.report.closed = true →
          r.profile = some q → d.report.output ≤ q.minimum →
          tells opening fun t => t.ordersGenset g .openBreaker false)
      ∧ (r.state = .stopping → d.report.tripped = true → tells { stopped with state := .off, rest := rested } fun t =>
          .noticeRaise .gensetTripped ∈ t.events)
      ∧ (∀ q, r.state = .stopping → r.phase = some .unloading ∨ r.phase = some .opening → d.report.tripped = false →
          d.report.closed = false → r.profile = some q →
          (q.coolDown ≠ 0 → becomes { r with phase := some .cooling, coolDown := some (secs q.coolDown), phaseLimit := none })
          ∧ (q.coolDown = 0 → tells shutting fun t => t.ordersGenset g .stop false))
      ∧ (r.state = .stopping → d.report.tripped = false →
          (r.phase = some .cooling ∨ (r.phase = some .opening ∧ d.report.closed = true)
            ∨ (r.phase = some .shutting ∧ d.report.running = true)
            ∨ (r.phase = some .unloading ∧ d.report.closed = true ∧ ∃ q, r.profile = some q ∧ q.minimum < d.report.output)) →
          becomes r))
      ∧ (∀ a, d.answer = some a → a.accepted = false → r.state = .stopping → d.report.tripped = false →
          (r.phase = some .unloading → a.sent.order = .unload → d.report.closed = true →
            (∃ q, r.profile = some q ∧ q.minimum < d.report.output) →
            tells opening fun t => t.ordersGenset g .openBreaker false)
          ∧ ((r.phase = some .opening ∧ a.sent.order = .openBreaker ∧ d.report.closed = true)
              ∨ (r.phase = some .shutting ∧ a.sent.order = .stop ∧ d.report.running = true) →
            tells shutting fun t => t.ordersGenset g .stop true))
      ∧ (∀ a, d.answer = some a → r.state = .off → r.phase = none → s.queueRests →
          let bare := (s.took (.gsReplyDelivery d)).slotView (.genset g) = none
          let owed : Prop := r.stopOwed = true ∧ a.sent.order = .stop ∧ bare
          (owed → a.accepted = false → tells r fun t => t.ordersGenset g .stop true)
          ∧ (owed → a.accepted = true → becomes { r with stopOwed := false })
          ∧ (¬ owed → tells r fun t => t.gs = (s.setGenset g r).gs ∧ t.events = (s.took (.gsReplyDelivery d)).events))
      ∧ (∀ now, now ≠ .lost → exec (.gsContactLost g now) s = .next (s.took (.gsContactLost g now)))
      ∧ ∃ t, exec (.gsContactLost g .lost) s = .next t ∧ s.onlySequencer t
        ∧ (r.state = .online → t.genset g = { s.genset g with state := .unknown, minRun := none })
        ∧ (r.state = .off → t.genset g = { s.genset g with state := .unknown })
        ∧ (r.state = .stopping →
            t.genset g = { s.genset g with state := .unknown, phase := none, coolDown := none, phaseLimit := none })
        ∧ (r.state = .failed ∨ r.state = .locked ∨ r.state = .unknown → t.genset g = s.genset g))
    ∧ ∀ (s : State) (d : GensetDelivery), s.inReset = false → s.laneOf d.genset = none → s.queued d.genset = true →
      (s.genset d.genset).state = .off → s.noLaneFree →
      let g := d.genset
      (d.answer = none → ∃ t, exec (.gsReplyDelivery d) s = .next t ∧ t.genset g = { s.genset g with report := d.report }
          ∧ t.gs.queue = s.gs.queue ∧ (∀ k, k ≠ g → t.genset k = s.genset k) ∧ s.onlySequencer t)
        ∧ ∃ t, exec (.gsContactLost g .lost) s = .next t ∧ t.genset g = { s.genset g with state := .unknown }
          ∧ t.gs.queue = s.gs.queue.filter (fun e => e.genset != g) ∧ (∀ k, k ≠ g → t.genset k = s.genset k)
          ∧ s.onlySequencer t

/-- A run that fails (R89, R90, R96 to R103). Before its genset is ONLINE: a step limit, except of WAIT and RAMP, the ready wait
and a trip count an attempt, and leave the genset OFF with its rest timer started and its STOP owed until the unit accepts it (log
69), or FAILED at the maximum, with an urgent STOP; loss of contact counts up to the maximum and leaves it UNKNOWN; an abort by
the IC, or in ABORTING the limit or a refused close, counts none and leaves it OFF, even where its attempts are used up (log 17).
A rest timer that still runs where a genset becomes FAILED runs on, the model's choice (log 70). Once ONLINE a step limit and the
ready wait count up to the maximum and leave it ONLINE; a trip is a trip and a failure, and loss of contact leaves it UNKNOWN. In
ABORTING a closed breaker makes it ONLINE, a rest timer that runs kept (log 70). Each raises START FAILED, keeps its cause in the
record (R148, log 50), and tells the IC of a RESTART run that never went ONLINE (R112, log 65). That a refusal is of the close
awaited is told by the order's kind (log 81). The limit of a WAIT completes the step, and so does that of a RAMP, which never
fails by it and whose RAMP order leaves the slot (R94, R95): HELD without READY. -/
def Obligations.FailedRunsCountTheirAttemptsAndStopTheEngine : Prop :=
  ∀ (s : State) (l : LaneId) (q : Run), s.inReset = false → s.run l = some q →
    let g := q.genset
    let r := s.genset g
    let rested : Timer := some (secs (s.setting .restAfterFailure))
    let ends (c : Instr) (x : Genset) (why : FailCause) : Prop :=
      ∃ t, exec c s = .next t ∧ t.genset g = x ∧ .noticeRaise .startFailed ∈ t.events ∧ s.onlySequencer t
        ∧ (s.starts = false → t.run l = none)
        ∧ (r.state = .starting → why ≠ .contactLost → t.ordersGenset g .stop true)
        ∧ (q.origin = .restart → r.state = .starting → .leadOutcome (.failed g why) ∈ t.events)
    let aborted (x : Genset) : Genset :=
      { x with state := .off, rest := rested, cause := some .aborted, stopOwed := true }
    (r.state = .starting ∨ r.state = .online → s.queued g = false → (∀ l' q', s.run l' = some q' → q'.genset = g → l' = l) →
        let failed (x : Genset) (why : FailCause) : Genset :=
          if r.state = .starting then s.failedRecord x why else { x with attempts := x.attemptsCapped, cause := some why }
        (∀ f, q.state ≠ .aborting → q.stepTimer ≠ none → q.inFlight = some f → f.step.kind ≠ .wait → f.step.kind ≠ .ramp →
          ends (.stepLimitExpiry l) (failed r .stepLimit) .stepLimit)
        ∧ (q.readyWait ≠ none → ends (.readyWaitExpiry l) (failed r .readyLost) .readyLost)
        ∧ (q.origin = .restart → r.state = .starting → ends (.icLaneAbort g) (aborted r) .aborted)
        ∧ (∀ d : GensetDelivery, d.genset = g → d.answer = none →
            d.report.tripped = true ∨ (r.state = .online ∧ d.report.closed = false) →
            ends (.gsReplyDelivery d) (s.failedRecord { r with report := d.report } .trip) .trip
            ∧ ∀ t, exec (.gsReplyDelivery d) s = .next t → t.ordersGenset g .stop true
              ∧ (r.state = .online → .noticeRaise .gensetTripped ∈ t.events))
        ∧ ends (.gsContactLost g .lost) { r with
            attempts := r.attemptsCapped, state := .unknown, minRun := none, rest := rested, cause := some .contactLost
            stopOwed := false } .contactLost
        ∧ (q.state = .aborting → r.state = .starting →
          (∀ f, q.stepTimer ≠ none → q.inFlight = some f → ends (.stepLimitExpiry l) (aborted r) .aborted)
          ∧ (∀ (d : GensetDelivery) p, d.genset = g → d.answer = none → d.report.tripped = false → d.report.closed = true →
            r.profile = some p → ∃ t, exec (.gsReplyDelivery d) s = .next t ∧ s.onlySequencer t
              ∧ t.genset g = { r with
                  report := d.report, state := .online, minRun := some (secs p.minRun), stopOwed := false }
              ∧ .noticeRaise .startFailed ∈ t.events
              ∧ (q.origin = .restart → .leadOutcome (.online g) ∈ t.events))
          ∧ (∀ (d : GensetDelivery) a f, d.genset = g → d.answer = some a → a.accepted = false → d.report.tripped = false →
            d.report.closed = false → q.inFlight = some f →
            (f.step.kind = .close ∧ a.sent.order = .close) ∨ (f.step.kind = .deadclose ∧ a.sent.order = .deadclose) →
            ends (.gsReplyDelivery d) (aborted { r with report := d.report }) .aborted)))
      ∧ (∀ f, s.noLaneFree → q.state ≠ .aborting → q.stepTimer ≠ none → q.inFlight = some f →
          f.step.kind = .wait ∨ f.step.kind = .ramp → r.report.ready = false → ∃ t, exec (.stepLimitExpiry l) s = .next t
          ∧ (∀ p b, f.step.kind = .ramp → (s.took (.stepLimitExpiry l)).slotView (.genset g) = some (.ramp p, b) →
            .orderWithdrawal { target := .genset g, kind := .ramp, by_ := .gs } ∈ t.events)
          ∧ t.run l = some { q with state := .held, inFlight := none, stepTimer := none
                                    readyWait := some (secs (s.setting .readyWait)) }
          ∧ t.gs.gensets = s.gs.gensets ∧ s.onlySequencer t)

/-- A step begins, here as the WAIT before it ends on its limit with READY reported (R89): the pointer passes on and the step is
in flight. CRANK, RAMP and AWAIT, not yet met, wait for a report under their limit, the first two with their order (R90, R94), a
RAMP for a further one whatever the report at hand shows, the model's choice (log 93); a SYNC on a LIVE held bus, and a DEADCLOSE
of the lead in RESTART on a DEAD one, take the sync token and order, or wait in TOKEN WAIT for the other lane's (R91, R92, R93); a
CLOSE needs the token (R93); END of an ONLINE genset ends the run with no attempts and the pointer at the primary slot (R94).
Elsewhere the step is an ILLEGAL STEP, and the run fails (R92 to R97). A lane that holds the token already is granted it again
(log 56). What a failed run's record holds beyond R96, the cause and attempts used that end at 4 (log 50), the mark of the STOP
owed until the unit accepts it (log 69) and a rest timer that runs on in FAILED (log 70), is the model's. -/
def Obligations.LaneStepsBeginByTheirKind : Prop :=
  ∀ (s : State) (l : LaneId) (q : Run) (f : StepInFlight), s.inReset = false → s.run l = some q → q.state ≠ .aborting →
    q.stepTimer ≠ none → q.inFlight = some f → f.step.kind = .wait → (s.genset q.genset).report.ready = true →
    s.queued q.genset = false → (∀ l' q', s.run l' = some q' → q'.genset = q.genset → l' = l) →
    let g := q.genset
    let r := s.genset g
    let step := s.gs.store[r.pointer]
    let x : Genset := { r with pointer := r.pointer + 1 }
    let timed : Run := { q with
      state := .stepping, inFlight := some { pos := r.pointer, step := step }, stepTimer := some (step.limit * 100)
      readyWait := none }
    let elsewhere : Prop := ∃ l' q', l' ≠ l ∧ s.run l' = some q' ∧ q'.token = true
    let sync : Prop := step.kind = .sync ∧ s.ic.heldLive = true
    let dead : Prop := step.kind = .deadclose ∧ s.ic.state = .restart ∧ s.ic.lead = some g ∧ s.ic.heldLive = false
    let begins (run : Run) (p : State → Prop) : Prop :=
      s.queueRests → ∃ t, exec (.stepLimitExpiry l) s = .next t ∧ t.run l = some run ∧ t.genset g = x ∧ s.onlySequencer t ∧ p t
    let unmet : Prop := (step.arg = 1 ∧ r.report.running = false) ∨ (step.arg = 2 ∧ r.report.voltsOk = false)
      ∨ (step.arg = 3 ∧ r.report.warm = false)
    (step.kind = .crank → r.report.running = false → begins timed fun t => t.ordersGenset g .crank false)
      ∧ (step.kind = .await → unmet → begins timed fun _ => True)
      ∧ (step.kind = .wait → begins timed fun _ => True)
      ∧ (step.kind = .ramp → r.state = .online → begins timed fun t => t.ordersGenset g (.ramp step.arg) false)
      ∧ (sync ∨ dead → elsewhere → begins { timed with state := .tokenWait, stepTimer := none } fun _ => True)
      ∧ (sync → ¬ elsewhere → r.report.synced = false →
          begins { timed with token := true } fun t => t.ordersGenset g .sync false)
      ∧ (dead → ¬ elsewhere → r.report.closed = false →
          begins { timed with token := true, closeOrdered := true } fun t => t.ordersGenset g .deadclose false)
      ∧ (step.kind = .close → q.token = true → r.report.closed = false →
          begins { timed with closeOrdered := true } fun t => t.ordersGenset g .close false)
      ∧ (∀ p, step.kind = .end_ → r.state = .online → r.profile = some p → ∃ t, exec (.stepLimitExpiry l) s = .next t
          ∧ t.genset g = { r with attempts := 0, pointer := (t.genset g).pointer }
          ∧ (t.genset g).pointer.val = 16 * p.primary.val ∧ s.onlySequencer t ∧ (s.starts = false → t.run l = none))
      ∧ (let illegal : Prop := (step.kind = .sync ∧ ¬ sync) ∨ (step.kind = .deadclose ∧ ¬ dead)
            ∨ (step.kind = .close ∧ q.token = false) ∨ ((step.kind = .ramp ∨ step.kind = .end_) ∧ r.state ≠ .online)
        illegal → r.state = .starting ∨ r.state = .online → ∃ t, exec (.stepLimitExpiry l) s = .next t ∧ s.onlySequencer t
          ∧ .noticeRaise .startFailed ∈ t.events ∧ (s.starts = false → t.run l = none)
          ∧ (r.state = .starting → t.genset g = s.failedRecord x .illegalStep ∧ t.ordersGenset g .stop true)
          ∧ (r.state = .online → t.genset g = { x with attempts := r.attemptsCapped, cause := some .illegalStep }))

/-- A report of a genset in a lane, here without READY, so that a completed step leaves the lane HELD (R89): it completes a
CRANK, an AWAIT, a SYNC or a RAMP that it meets, whose order leaves the slot where it still stands there (R90, R92, R94, R95,
log 7), and no other step; a report of any kind leaves an AWAIT that it does not meet in flight (R90). A breaker that closes
completes a CLOSE or DEADCLOSE: the genset is ONLINE with its min-run timer started, the IC is told of a RESTART run, and the
sync token is freed and goes to the lane in TOKEN WAIT, whose SYNC then begins (R91, R93). A report in TOKEN WAIT, and one
without READY in HELD, changes the record alone; one with READY in HELD, or that completes an AWAIT, begins the step at the
pointer, here a WAIT. That the record of a genset become ONLINE loses the mark of a STOP owed (log 69) and keeps a rest timer
that runs (log 70) is the model's. -/
def Obligations.LaneReportsCompleteStepsAndPassTheToken : Prop :=
  ∀ (s : State) (d : GensetDelivery) (l : LaneId) (q : Run), s.inReset = false → d.answer = none → s.run l = some q →
    q.genset = d.genset → (∀ l' q', s.run l' = some q' → q'.genset = d.genset → l' = l) → s.queueRests →
    d.report.tripped = false → (s.genset d.genset).state = .starting
      ∨ ((s.genset d.genset).state = .online ∧ d.report.closed = true) →
    let c := Instr.gsReplyDelivery d
    let g := d.genset
    let r := { s.genset g with report := d.report }
    let held : Run := { q with
      state := .held, inFlight := none, stepTimer := none, readyWait := some (s.setting .readyWait * 1000) }
    let leaves (run : Run) (x : Genset) (p : State → Prop) : Prop :=
      ∃ t, exec c s = .next t ∧ t.run l = some run ∧ t.genset g = x ∧ s.onlySequencer t ∧ p t
    let withdrawn (k : OrderKind) (t : State) : Prop := ∀ o b, (s.took c).slotView (.genset g) = some (o, b) → o.kind = k →
      .orderWithdrawal { target := .genset g, kind := k, by_ := .gs } ∈ t.events
    (∀ f, q.state = .stepping → q.inFlight = some f → d.report.ready = false →
        let kind := f.step.kind
        let arg := f.step.arg
        (kind = .crank → d.report.running = true → leaves held r (withdrawn .crank))
        ∧ (kind = .await → (arg = 1 ∧ d.report.running = true) ∨ (arg = 2 ∧ d.report.voltsOk = true)
            ∨ (arg = 3 ∧ d.report.warm = true) → leaves held r fun _ => True)
        ∧ (kind = .sync → d.report.synced = true → leaves held r (withdrawn .sync))
        ∧ (∀ p, kind = .ramp → r.profile = some p → arg * p.rated ≤ d.report.output * 100 → leaves held r (withdrawn .ramp))
        ∧ ((kind = .wait ∨ kind = .end_ ∨ (kind = .crank ∧ d.report.running = false) ∨ (kind = .sync ∧ d.report.synced = false)
            ∨ ((kind = .close ∨ kind = .deadclose) ∧ d.report.closed = false)
            ∨ (kind = .ramp ∧ ∃ p, r.profile = some p ∧ d.report.output * 100 < arg * p.rated)) → leaves q r fun _ => True)
        ∧ (∀ p, kind = .close ∨ kind = .deadclose → d.report.closed = true → r.state = .starting → r.profile = some p →
            leaves { held with token := false, closeOrdered := false }
              { r with state := .online, minRun := some (secs p.minRun), stopOwed := false } fun t =>
              (q.origin = .restart → .leadOutcome (.online g) ∈ t.events)
              ∧ ∀ l' q' f', q.token = true → l' ≠ l → s.run l' = some q' → q'.state = .tokenWait → q'.inFlight = some f' →
                f'.step.kind = .sync → (s.genset q'.genset).report.synced = false →
                t.run l' = some { q' with token := true, state := .stepping, stepTimer := some (f'.step.limit * 100) }
                  ∧ t.ordersGenset q'.genset .sync false))
      ∧ (∀ f, q.state = .stepping → q.inFlight = some f → f.step.kind = .await →
          (f.step.arg = 1 ∧ d.report.running = false) ∨ (f.step.arg = 2 ∧ d.report.voltsOk = false)
            ∨ (f.step.arg = 3 ∧ d.report.warm = false) ∨ (f.step.arg = 4 ∧ d.report.ready = false) → leaves q r fun _ => True)
      ∧ (q.state = .tokenWait ∨ (q.state = .held ∧ d.report.ready = false) → leaves q r fun _ => True)
      ∧ (let step := s.gs.store[r.pointer]
        let met : Prop := q.state = .stepping ∧ ∃ f, q.inFlight = some f ∧ f.step.kind = .await
          ∧ ((f.step.arg = 1 ∧ d.report.running = true) ∨ (f.step.arg = 2 ∧ d.report.voltsOk = true)
            ∨ (f.step.arg = 3 ∧ d.report.warm = true) ∨ f.step.arg = 4)
        q.state = .held ∨ met → d.report.ready = true → step.kind = .wait →
        leaves { q with
          state := .stepping, inFlight := some { pos := r.pointer, step := step }, stepTimer := some (step.limit * 100)
          readyWait := none } { r with pointer := r.pointer + 1 } fun _ => True)

/-- What the IC asks of the GS (R77, R112): a lead that may not start is refused at once; one that may is STARTING in lane A with
origin RESTART, HELD on a report without READY, its pointer at its dark slot where it has one, and else where it
stands if that is step 0 of a slot, and at step 0 of the next slot if it is not (R84); it leaves the Start Queue, and nothing else of its record changes. An
adoption makes every genset ONLINE that meets the four conditions, its rest timer discarded and the mark of a STOP owed with it
(log 69), and answers with their numbers and the request's tag (log 26); the slot of the fourth condition is read with what is on
its way (log 7). The lead taken keeps a rest timer that runs (log 70). -/
def Obligations.LeadStartsAndAdoptionsAsTheIslandAsks : Prop :=
  ∀ s : State, s.inReset = false →
    (∀ g, let c := Instr.leadStartRequest g
      (s.gs.laneA ≠ none ∨ (s.genset g).profile = none ∨ (s.genset g).state ≠ .off →
        exec c s = .next ((s.took c).push (.leadOutcome (.refused g))))
      ∧ (∀ p, s.ic.state = .restart → s.gs.laneA = none → (s.genset g).profile = some p → (s.genset g).state = .off →
          (s.genset g).report.ready = false → ∃ t, exec c s = .next t
          ∧ t.genset g = { s.genset g with state := .starting, pointer := (t.genset g).pointer }
          ∧ (∀ d, p.dark = some d → (t.genset g).pointer.val = 16 * d.val)
          ∧ (p.dark = none → let at_ := (s.genset g).pointer.val
            (t.genset g).pointer.val = if at_ % 16 = 0 then at_ else 16 * ((at_ / 16 + 1) % 8))
          ∧ t.gs.queue = s.gs.queue.filter (fun e => e.genset != g) ∧ (∀ k, k ≠ g → t.genset k = s.genset k)
          ∧ t.gs.laneA = some { genset := g, origin := .restart, state := .held
                                readyWait := some (secs (s.setting .readyWait)) }
          ∧ t.gs.laneB = s.gs.laneB ∧ s.onlySequencer t))
    ∧ (∀ why, ∃ t found, exec (.adoptionRequest why) s = .next t ∧ s.onlySequencer t
        ∧ .adoptionAnswer why found ∈ t.events
        ∧ (∀ g, g ∈ found ↔ (s.genset g).profile ≠ none ∧ ((s.genset g).state = .off ∨ (s.genset g).state = .unknown)
            ∧ s.contactOf (.genset g) = .inContact ∧ onBus (s.genset g).report = true
            ∧ (∀ b, (s.took (.adoptionRequest why)).slotView (.genset g) ≠ some (.stop, b)
                ∧ (s.took (.adoptionRequest why)).slotView (.genset g) ≠ some (.openBreaker, b)))
        ∧ (∀ g p, g ∈ found → s.laneOf g = none → (s.genset g).profile = some p → t.genset g =
            { s.genset g with state := .online, minRun := some (secs p.minRun), rest := none, stopOwed := false }))

/-- Demand and the island states at the GS (R86, R104, R111): with both lanes taken, a balance update, and the telling of RUN and
RESTORE, appends the eligible gensets in order of merit one after the other while the covered capacity is below capacity
wanted, and no further; takes the last DEMAND entries off one after the other while what is left still covers it; drops every
DEMAND entry where nothing is wanted, and moves no genset; where starts are not served it leaves the queue. With a lane IDLE and
none queued a genset that is appended is taken at once, by lane A, or by lane B where A is taken; of two, lane A takes the first
and lane B the next, here each HELD on a report without READY (R87). In DARK lanes and queue are emptied, their gensets OFF, and
no genset is ONLINE, each that was having an urgent OPEN BREAKER; each STOPPING one passes to SHUTTING with an urgent STOP, its
phase limit started (R107); SETUP and RESTART only abandon the stop delay. The stop condition (R104) names the ONLINE genset of
the highest merit number, and none where that one may not stop; a balance update and the telling of RUN and RESTORE have it
judged: the stop delay starts with its candidate noted, is kept, or is abandoned, for a changed candidate a fresh one starting in
the same judgement, the model's choice (log 57). -/
def Obligations.DemandAndIslandStatesAtTheSequencer : Prop :=
  ∀ s : State, s.inReset = false →
    (∀ c, c = .gsBalanceUpdate ∨ (∃ n, (n = .run ∨ n = .restore) ∧ c = .gsIslandState n) → s.noLaneFree →
        ∃ t, exec c s = .next t ∧ s.onlySequencer t ∧ t.gs.gensets = s.gs.gensets
        ∧ t.gs.laneA = s.gs.laneA ∧ t.gs.laneB = s.gs.laneB
        ∧ s.demandJudged t)
      ∧ (∀ c g k rest, c = .gsBalanceUpdate ∨ (∃ n, (n = .run ∨ n = .restore) ∧ c = .gsIslandState n) → s.starts = true →
          s.gs.queue = [] → s.covered < s.capacityWanted → s.eligibles = g :: rest → (s.genset g).report.ready = false →
          let one : Kw := s.covered + (s.genset g).rated
          (∀ l other, (l = .a ∧ other = .b) ∨ (l = .b ∧ other = .a ∧ s.gs.laneA ≠ none) → s.run l = none →
            s.capacityWanted ≤ one → ∃ t, exec c s = .next t ∧ s.onlySequencer t ∧ s.takenHeld t l g .demand (s.genset g)
              ∧ t.run other = s.run other ∧ t.gs.queue = [] ∧ ∀ j, j ≠ g → t.genset j = s.genset j)
          ∧ (rest.head? = some k → (s.genset k).report.ready = false → s.gs.laneA = none → s.gs.laneB = none →
            one < s.capacityWanted → s.capacityWanted ≤ one + (s.genset k).rated → ∃ t, exec c s = .next t
              ∧ s.onlySequencer t ∧ s.takenHeld t .a g .demand (s.genset g) ∧ s.takenHeld t .b k .demand (s.genset k)
              ∧ t.gs.queue = [] ∧ ∀ j, j ≠ g → j ≠ k → t.genset j = s.genset j))
      ∧ (∀ g, s.stopHolds = some g → s.mayStop g ∧ ∀ k, (s.genset k).state = .online → (s.genset k).merit ≤ (s.genset g).merit)
      ∧ (∀ g, s.mayStop g → (∀ k, k ≠ g → (s.genset k).state = .online → (s.genset k).merit < (s.genset g).merit) →
          s.stopHolds = some g)
      ∧ (∀ c, c = .gsBalanceUpdate ∨ (∃ n, (n = .run ∨ n = .restore) ∧ c = .gsIslandState n) →
          ∃ t, exec c s = .next t ∧ s.onlySequencer t ∧ s.stopJudged t)
      ∧ (∀ g, g ∈ s.eligibles ↔ (s.genset g).profile ≠ none ∧ (s.genset g).state = .off ∧ (s.genset g).rest = none
          ∧ s.queued g = false)
      ∧ s.eligibles.Pairwise (fun g k => ∀ p q, (s.genset g).profile = some p → (s.genset k).profile = some q → p.merit ≤ q.merit)
      ∧ (s.ic.state = .dark → ∃ t, exec (.gsIslandState .dark) s = .next t ∧ s.onlySequencer t
        ∧ t.gs.laneA = none ∧ t.gs.laneB = none ∧ t.gs.queue = [] ∧ t.gs.stopDelay = none ∧ t.gs.stopCandidate = none
        ∧ (∀ g, (t.genset g).state ≠ .online) ∧ (∀ l q, s.run l = some q → (t.genset q.genset).state = .off)
        ∧ (∀ g, (s.genset g).state = .stopping → s.laneOf g = none → t.ordersGenset g .stop true
          ∧ t.genset g = { s.genset g with phase := some .shutting, coolDown := none, phaseLimit := some 60000 })
        ∧ ∀ g, (s.genset g).state = .online → (t.genset g).state = .off ∧ (t.genset g).minRun = none
          ∧ .orderPlacement { target := .genset g, order := .openBreaker, owner := .gs, urgent := true } ∈ t.events)
      ∧ (∀ n, n = .setup ∨ n = .restart → s.ic.state = n → exec (.gsIslandState n) s = .next
          { s.took (.gsIslandState n) with gs := { s.gs with stopDelay := none, stopCandidate := none } })

/-! ## Curtailment Unit -/

/-- SET ARRAY (R113, R114): out of range or outside SETUP with the CU not in OFF it is refused; a nameplate of 0 clears every
field but the loop address and has the order in the array's slot withdrawn, and any other defines the array, which keeps its
state and its claimed cap; the other arrays keep theirs and the targets are worked out. SET SHARE writes one entry of the
standby bank and is refused for the active one (R117); SWAP BANKS leaves a swap pending (R118). OUT OF RANGE ahead of PROTECTED
and of BANK ACTIVE is the model's order of the tests (log 43), and the slot is read with what is on its way (log 7). -/
def Obligations.ArraysAndShareBanksAreConfigured : Prop :=
  ∀ s : State, s.inReset = false →
    (∀ n nameplate fallback, let c := Instr.setArray n nameplate fallback
      let refused (r : Reason) : State := (s.took c).repliedRefused 0x40 r
      (8 ≤ n ∨ 16000 < nameplate ∨ nameplate < fallback → exec c s = .next (refused .outOfRange))
      ∧ (∀ a : ArrayNo, n = a.val → nameplate ≤ 16000 → fallback ≤ nameplate →
          (s.ic.state ≠ .setup → s.cu.state ≠ .off → exec c s = .next (refused .protected_))
          ∧ (s.ic.state = .setup ∨ s.cu.state = .off → ∃ t, exec c s = .next t
            ∧ (nameplate = 0 → t.array a = { addr := (s.array a).addr } ∧ ∀ o, s.slotView (.array a) = some o →
                .orderWithdrawal { target := .array a, kind := o.1.kind, by_ := .cu } ∈ t.events)
            ∧ (nameplate ≠ 0 →
                t.arrayIs a { s.array a with definition := some { nameplate := nameplate, fallback := fallback } })
            ∧ (∀ b, b ≠ a → s.sameArray t b) ∧ t.targeted ∧ State.onlyCurtailment (s.replied 0x40 []) t)))
      ∧ (∀ bank n weight limit enabled, let c := Instr.setShare bank n weight limit enabled
        let refused (r : Reason) : State := (s.took c).repliedRefused 0x41 r
        let share : Share := { weight := weight, limit := limit, enabled := enabled }
        (8 ≤ n ∨ 1 < bank ∨ 100 < weight ∨ 16000 < limit → exec c s = .next (refused .outOfRange))
        ∧ (∀ a : ArrayNo, n = a.val → weight ≤ 100 → limit ≤ 16000 →
            (bank = 0 → s.cu.current = .a → exec c s = .next (refused .bankActive))
            ∧ (bank = 1 → s.cu.current = .b → exec c s = .next (refused .bankActive))
            ∧ (bank = 0 → s.cu.current = .b → exec c s = .next
                (State.replied { s.took c with cu := { s.cu with bankA := s.cu.bankA.set a share } } 0x41 []))
            ∧ (bank = 1 → s.cu.current = .a → exec c s = .next
                (State.replied { s.took c with cu := { s.cu with bankB := s.cu.bankB.set a share } } 0x41 []))))
      ∧ exec .swapBanks s = .next
        (State.replied { s.took .swapBanks with cu := { s.cu with swapPending := true } } 0x42 [])

/-- CURTAIL ON and CURTAIL OFF (R120, R121): from OFF to WATCH, or to ENGAGED with its notice where the engagement test of R124
holds (by its words also where the ceiling less the engage level is below 0, log 89); between ENGAGED and DISENGAGING, where the
release condition is judged (R125); from WATCH to OFF with every target UNHELD; in DARK HOLD by the resume state; elsewhere no
change. Each change of the CU state works the targets out (R122), in every island state, SETUP with them (log 47). That CURTAIL ON
in DISENGAGING abandons a running release delay where the condition fails is the model's reading (log 83). The reply gives the CU
state after the command. -/
def Obligations.CurtailOnAndOffMoveTheState : Prop :=
  ∀ s : State, s.inReset = false →
    let on := Instr.curtailOn
    let off := Instr.curtailOff
    let with_ (c : Instr) (u : Curtailment) : State := { s.took c with cu := u }
    let judged : Timer :=
      if s.ic.state = .run ∨ s.ic.state = .restore then
        (if s.releaseHolds then
          (if s.cu.releaseDelay = none then some (s.setting .releaseDelay * 1000) else s.cu.releaseDelay)
         else none)
      else s.cu.releaseDelay
    (s.cu.state = .off → ∃ t, exec on s = .next t ∧ (∀ a, s.sameArray t a) ∧ t.targeted
        ∧ t.cu.state = (if s.active ∧ s.engages then .engaged else .watch)
        ∧ (s.active ∧ s.engages → .noticeRaise .curtailEngaged ∈ t.events)
        ∧ State.onlyCurtailment (s.replied 0x43 [t.cu.state.code]) t)
      ∧ (s.cu.state = .watch ∨ s.cu.state = .engaged → exec on s = .next ((s.took on).replied 0x43 [s.cu.state.code]))
      ∧ (s.cu.state = .disengaging → ∃ t, exec on s = .next t ∧ (∀ a, s.sameArray t a) ∧ t.targeted
        ∧ t.cu = { s.cu with state := .engaged, releaseDelay := judged, arrays := t.cu.arrays }
        ∧ State.onlyCurtailment (s.replied 0x43 [2]) t)
      ∧ (s.cu.state = .darkHold → exec on s = .next ((with_ on { s.cu with
          resumeState :=
            if s.cu.resumeState = some .off then some .watch
            else if s.cu.resumeState = some .disengaging then some .engaged else s.cu.resumeState }).replied 0x43 [4]))
      ∧ (s.cu.state = .watch → ∃ t, exec off s = .next t ∧ t.cu.state = .off
          ∧ (∀ a, s.sameArray t a ∧ (t.array a).target = (s.array a).definition.map fun _ => .unheld)
          ∧ State.onlyCurtailment (s.replied 0x44 [0]) t)
      ∧ (s.cu.state = .engaged → ∃ t, exec off s = .next t ∧ (∀ a, s.sameArray t a) ∧ t.targeted
        ∧ t.cu = { s.cu with state := .disengaging, releaseDelay := judged, arrays := t.cu.arrays }
        ∧ State.onlyCurtailment (s.replied 0x44 [3]) t)
      ∧ (s.cu.state = .off ∨ s.cu.state = .disengaging →
          exec off s = .next ((s.took off).replied 0x44 [s.cu.state.code]))
      ∧ (s.cu.state = .darkHold → exec off s = .next ((with_ off { s.cu with resumeState := some .off }).replied 0x44 [4]))

/-- In ENGAGED and DISENGAGING every defined array's target is a cap: 0 for an array that is not enabled in the active bank, of
weight 0 or not reachable, and else the least of its station limit, its nameplate kW and the ceiling times its weight over the
sum of the weights of the enabled, reachable arrays, the fraction dropped; so the targets sum to no more than the ceiling
(R123). -/
def Obligations.TargetsShareTheCeilingAndStayUnderIt : Prop :=
  ∀ s : State, s.cu.state = .engaged ∨ s.cu.state = .disengaging →
    let able (a : ArrayNo) : Prop := (s.share a).enabled = true ∧ (s.share a).weight ≠ 0 ∧ s.reachable a = true
    let sum : Nat := sumOver (fun a => if (s.share a).enabled && s.reachable a then (s.share a).weight else 0) s.definedArrays
    (∀ a d, (s.array a).definition = some d →
        (¬ able a → s.targetOf a = some (.kw 0))
        ∧ (able a → s.targetOf a =
            some (.kw (min (s.share a).limit (min d.nameplate (s.ceiling * (s.share a).weight / sum))))))
      ∧ sumOver (fun a => ((s.targetOf a).getD .unheld).level (s.array a).nameplate) s.definedArrays ≤ s.ceiling

/-- The CU's tellings (R119, R122, R124, R134, R135): each works out every target and changes no state, hold or claimed cap of an
array. In WATCH a ceiling change, RUN entered from SETUP and RESTORE engage where R124 says, with the notice (its first test taken
by its words, log 89). DARK takes the CU to DARK HOLD with its former state as resume state, clears the refusal marks and orders
an urgent HOLD of 0 to every defined array not LOST; a release claim that waits is dropped there, the model's choice (log 88).
RESTORE returns it to its resume state. Release is judged on a ceiling change, on RESTORE and where WATCH engages (R125): the
release delay starts or is kept while the condition holds, and is abandoned where it fails. -/
def Obligations.TellingsMoveTheCurtailmentStateAndItsTargets : Prop :=
  ∀ s : State, s.inReset = false →
    let engaging (st : CurtailState) : CurtailState := if st = .watch ∧ s.active ∧ s.engages then .engaged else st
    let works (c : Instr) (st : CurtailState) (t : State) : Prop :=
      exec c s = .next t ∧ (∀ a, s.sameArray t a) ∧ t.targeted ∧ s.onlyCurtailment t ∧ t.cu.state = engaging st
        ∧ (st = .watch → t.cu.state = .engaged → .noticeRaise .curtailEngaged ∈ t.events)
    (s.engages = true ↔ (s.ceiling : Int) - s.setting .engageLevel
        < (sumOver (fun a => (s.array a).lastOutput) s.definedArrays : Nat) ∨ s.ceiling < s.exposure)
      ∧ (s.releaseHolds = true ↔ sumOver (fun a => min (s.array a).nameplate (s.share a).limit) s.definedArrays
        + s.setting .releaseLevel ≤ s.ceiling)
      ∧ (∃ t, works .cuBalanceUpdate s.cu.state t ∧ t.cu.resumeState = s.cu.resumeState ∧ s.releaseJudged t)
      ∧ (∃ t, works (.cuRunEntry .setup) s.cu.state t ∧ t.cu.resumeState = s.cu.resumeState ∧ s.releaseJudged t)
      ∧ (∀ left, left ≠ .setup → ∃ t, exec (.cuRunEntry left) s = .next t ∧ (∀ a, s.sameArray t a) ∧ t.targeted
          ∧ s.onlyCurtailment t ∧ t.cu = { s.cu with arrays := t.cu.arrays })
      ∧ (∃ t, works .cuRestoreEntry (if s.cu.state = .darkHold then s.cu.resumeState.getD .off else s.cu.state) t
          ∧ (t.cu.resumeState = if s.cu.state = .darkHold then none else s.cu.resumeState) ∧ s.releaseJudged t)
      ∧ (∃ t, exec .cuDarkEntry s = .next t ∧ s.onlyCurtailment t
          ∧ t.cu = { s.cu with
              state := .darkHold
              resumeState := if s.cu.state = .darkHold then s.cu.resumeState else some s.cu.state
              releaseDelay := none, releaseWaiting := false, arrays := t.cu.arrays }
          ∧ ∀ a, let defined := (s.array a).definition.isSome = true
            let known := s.contactOf (.array a) ≠ .lost
            t.arrayIs a { s.array a with refusal := false }
              ∧ (t.array a).target = ((s.array a).definition.map fun _ => .kw 0)
              ∧ (defined → known → t.orderedBy a (.hold 0 (s.setting .holdLength)) (.kw 0) true)
              ∧ (¬ defined ∨ ¬ known → (t.array a).ordered = (s.array a).ordered))

/-- An array REPLY (R116, R130, R131) sets the last output; in WATCH engagement is judged on the report, before the answer, and
again on what the answer leaves (R124, R175; the answered order counts as ordered until then, log 78); an accepted HOLD leaves
the array HELD with the cap and length that the order carried and no claimed cap, an accepted RELEASE leaves it UNHELD, and a
refusal sets the refusal mark and keeps the state, the claimed cap going where the refused order carried it, that is a HOLD at
the claimed cap, or a RELEASE (log 59). LOST makes a HELD array LAPSED, and removes the claimed cap, the ordered cap and the
refusal mark, and in WATCH engages where the exposure changed and the test holds (R124); SILENT and the rest keep every array's
state and the CU's, SILENT from UNKNOWN working the targets out (log 31). An answer for an array that SET ARRAY has removed
changes nothing but the last output that its report sets, the model's choice (log 85). -/
def Obligations.ArrayAnswersReportsAndContactLoss : Prop :=
  ∀ s : State, s.inReset = false →
    (∀ d : ArrayDelivery, d.output ≤ 16000 → ∃ t, exec (.cuReplyDelivery d) s = .next t ∧ s.onlyCurtailment t
        ∧ (∀ b, b ≠ d.array → s.sameArray t b)
        ∧ let r := { s.array d.array with lastOutput := d.output }
          let engaging : Prop :=
            s.cu.state = .watch ∧ s.active = true ∧ ((s.setArray d.array r).engages = true ∨ t.engages = true)
          (engaging → t.cu.state = .engaged ∧ .noticeRaise .curtailEngaged ∈ t.events ∧ s.releaseJudged t)
          ∧ (¬ engaging → t.cu.state = s.cu.state) ∧ (d.answer = none ∨ r.definition = none → t.arrayIs d.array r)
          ∧ ∀ ans, d.answer = some ans → r.definition ≠ none →
            (∀ cap length, ans.accepted = true → ans.sent.order = .hold cap length → t.arrayIs d.array { r with
              state := .held { cap := cap, remaining := length, length := length, quantum := 250 }, claimed := none })
            ∧ (ans.accepted = true → ans.sent.order = .release →
              t.arrayIs d.array { r with state := .unheld, claimed := none })
            ∧ (∀ cap length, ans.accepted = false → ans.sent.order = .hold cap length → t.arrayIs d.array { r with
              refusal := true, claimed := if r.claimed = some cap then none else r.claimed })
            ∧ (ans.accepted = false → ans.sent.order = .release →
              t.arrayIs d.array { r with refusal := true, claimed := none }))
      ∧ ∀ a, let r := s.array a
        (∃ t, exec (.cuContactLost a .lost) s = .next t ∧ s.onlyCurtailment t ∧ (∀ b, b ≠ a → s.sameArray t b)
          ∧ (r.isHeld = true → t.arrayIs a { r with state := .lapsed, claimed := none, refusal := false }
              ∧ (t.array a).exposure = r.fallback)
          ∧ (r.isHeld = false → t.arrayIs a { r with refusal := false })
          ∧ (s.reachable a = false → (t.array a).ordered = none) ∧ s.engagedBy t)
        ∧ (r.isHeld = true → exec (.cuContactLost a .silent) s = .next (s.took (.cuContactLost a .silent)))
        ∧ (r.isHeld = false → ∃ t, exec (.cuContactLost a .silent) s = .next t ∧ s.onlyCurtailment t
          ∧ (∀ b, s.sameArray t b) ∧ t.targeted ∧ t.cu.state = s.cu.state)
        ∧ (∀ now, now = .unknown ∨ now = .inContact →
          exec (.cuContactLost a now) s = .next (s.took (.cuContactLost a now)))

/-- Holds (R132, R133): each quantum takes one off the hold remaining of a HELD array, and at half its length or below, with no CU
order in the slot, places its renewal at the cap in force; a lapse leaves the array LAPSED with its exposure at the fallback,
and orders a fresh HOLD at the lesser of target and fallback, and in WATCH engages where it changed the exposure and the test
holds (R124). Neither touches another array or one that is not HELD. -/
def Obligations.HoldsCountDownRenewAndLapse : Prop :=
  ∀ (s : State) (a : ArrayNo), s.inReset = false →
    let r := s.array a
    let length := s.setting .holdLength
    (r.isHeld = false → exec (.holdQuantum a) s = .next (s.took (.holdQuantum a))
        ∧ exec (.holdLapse a) s = .next (s.took (.holdLapse a)))
      ∧ (∀ h, r.state = .held h →
          (∃ t, exec (.holdQuantum a) s = .next t ∧ s.onlyCurtailment t ∧ (∀ b, b ≠ a → s.sameArray t b)
            ∧ t.arrayIs a { r with state := .held { h with remaining := h.remaining - 1, quantum := 250 } }
            ∧ (s.mayOrder a = true → r.ordered = none → 1 < h.remaining → 2 * (h.remaining - 1) ≤ h.length →
                t.orderedBy a (.hold h.cap length) (.kw h.cap) false)
            ∧ (s.mayOrder a = false ∨ r.ordered ≠ none ∨ h.remaining ≤ 1 ∨ h.length < 2 * (h.remaining - 1) →
                (t.array a).ordered = r.ordered))
          ∧ (∃ t, exec (.holdLapse a) s = .next t ∧ s.onlyCurtailment t ∧ (∀ b, b ≠ a → s.sameArray t b)
            ∧ t.arrayIs a { r with state := .lapsed, claimed := none } ∧ (t.array a).exposure = r.fallback ∧ s.engagedBy t
            ∧ (s.mayOrder a = true → .orderPlacement
                { target := .array a, order := .hold (min r.targetLevel r.fallback) length, owner := .cu
                  urgent := s.holdsUrgent } ∈ t.events)))

/-- A share-period expiry (R118, R128) restarts its timer, takes a pending swap, clears every refusal mark and works out the
targets; a swap that takes effect has release judged, and without one the release delay stays (R125); a LAPSED array that had
refused is given its fresh HOLD again (R133), and in DARK HOLD any other its HOLD of 0 (R135), urgent by log 94, the model's
choice. Each array that is not LAPSED and may be ordered has its lowering placed (R127), its raise where its exposure covers the
target already, a RELEASE where that is UNHELD and else a HOLD, routine by log 84 (R128), or the renewal of its hold where that is
due and nothing else is ordered (R132). With no claim outstanding, in RUN and RESTORE outside DARK HOLD, it offers one raise claim
of what each array that calls for a raise still lacks, and none where no array lacks any. The answer ends the claim and orders
each raised array at its claimed cap, a RELEASE where that is its whole nameplate and its target UNHELD, a HOLD otherwise, but
none where a lowering ordered since the claim has passed it (R129, log 51); a release claim that waited is then offered (R126), or
dropped outside RUN and RESTORE, ENGAGED and DISENGAGING (log 88), and where any array was raised WATCH engages if the test of
R124 holds (log 62). -/
def Obligations.SharePeriodRaisesAndTheirAnswers : Prop :=
  ∀ s : State, s.inReset = false →
    (∃ t, exec .sharePeriodExpiry s = .next t ∧ s.onlyCurtailment t ∧ t.targeted
        ∧ (∀ a, t.arrayIs a { s.array a with refusal := false })
        ∧ t.cu.sharePeriod = s.setting .sharePeriod * 1000 ∧ t.cu.swapPending = false ∧ t.cu.state = s.cu.state
        ∧ t.cu.current = (if s.cu.swapPending then (if s.cu.current = .a then .b else .a) else s.cu.current)
        ∧ (s.cu.claim ≠ none ∨ s.active = false ∨ s.cu.state = .darkHold → t.cu.claim = s.cu.claim)
        ∧ (s.cu.swapPending = true → s.releaseJudged t) ∧ (s.cu.swapPending = false → t.cu.releaseDelay = s.cu.releaseDelay)
        ∧ (∀ a, (s.array a).refusal = true → (s.array a).state = .lapsed → t.mayOrder a = true → .orderPlacement
            { target := .array a, order := .hold (min (t.array a).targetLevel (s.array a).fallback) (s.setting .holdLength)
              owner := .cu, urgent := s.holdsUrgent } ∈ t.events)
        ∧ (∀ a, (s.array a).refusal = true → (s.array a).state ≠ .lapsed → (s.array a).ordered = none →
            s.cu.state = .darkHold → t.mayOrder a = true → t.orderedBy a (.hold 0 (s.setting .holdLength)) (.kw 0) true)
        ∧ (∀ a, let r := s.array a
            let level := (t.array a).targetLevel
            let hold (cap : Kw) (urgent : Bool) : Prop := t.orderedBy a (.hold cap (s.setting .holdLength)) (.kw cap) urgent
            let raises : Prop := s.active = true ∧ s.cu.state ≠ .darkHold ∧ r.currentLevel < level
            r.state ≠ .lapsed → t.mayOrder a = true →
              (level < r.currentLevel → hold level s.holdsUrgent)
              ∧ (raises → level ≤ (t.array a).exposure →
                ((t.array a).target = some .unheld → t.orderedBy a .release .unheld false)
                ∧ ((t.array a).target ≠ some .unheld → hold level false))
              ∧ (∀ h, r.state = .held h → r.ordered = none → 0 < h.remaining → h.remaining ≤ h.length / 2 → h.cap ≤ level →
                ¬ (raises ∧ level ≤ (t.array a).exposure) → ¬ (s.cu.state = .darkHold ∧ r.refusal = true) → hold h.cap false))
        ∧ let lacks (a : ArrayNo) (n : Kw) : Prop :=
            t.callsRaise a = true ∧ 0 < n ∧ (t.array a).exposure + n = (t.array a).targetLevel
          (s.cu.claim = none → s.active = true → s.cu.state ≠ .darkHold →
            ((∀ a n, ¬ lacks a n) → t.cu.claim = none)
            ∧ ((∃ a n, lacks a n) → t.cu.claim = some .raise
              ∧ ∃ needs, .posting (.exposureRaise .raise needs) ∈ t.events ∧ ∀ a n, (a, n) ∈ needs ↔ lacks a n)))
      ∧ ∀ raised, let c := Instr.raiseClaimAnswer raised
        let engaged : Prop := (s.cu.state = .engaged ∨ s.cu.state = .disengaging) ∧ s.active = true
        let engages : Prop := raised ≠ [] ∧ s.cu.state = .watch ∧ s.active = true ∧ s.engages = true
        ∃ t, exec c s = .next t ∧ s.onlyCurtailment t ∧ t.cu.releaseWaiting = false ∧ (∀ a, s.sameArray t a)
          ∧ (engages → t.cu.state = .engaged ∧ t.targeted ∧ .noticeRaise .curtailEngaged ∈ t.events ∧ s.releaseJudged t)
          ∧ (¬ engages → t.cu.state = s.cu.state)
          ∧ (s.cu.releaseWaiting = true → engaged → t.cu.claim = some .release
              ∧ .posting (.exposureRaise .release t.releaseNeeds) ∈ t.events)
          ∧ (s.cu.releaseWaiting = false ∨ ¬ engaged → t.cu.claim = none)
          ∧ ∀ a, ¬ engages → let r := s.array a
            let passed (cap : Kw) : Prop := r.lowered = true ∧ r.targetLevel < cap
            (t.array a).target = r.target ∧ (a ∉ raised → (t.array a).ordered = r.ordered)
            ∧ (∀ cap, a ∈ raised → r.claimed = some cap → r.isHeld = true → s.mayOrder a = true → s.cu.state ≠ .darkHold →
                ¬ passed cap →
                (r.nameplate ≤ cap ∧ r.target = some .unheld → t.orderedBy a .release .unheld false)
                ∧ (¬ (r.nameplate ≤ cap ∧ r.target = some .unheld) →
                    t.orderedBy a (.hold cap (s.setting .holdLength)) (.kw cap) false))
            ∧ (r.claimed = none ∨ (∃ cap, r.claimed = some cap ∧ passed cap) ∨ r.isHeld = false
                ∨ s.mayOrder a = false ∨ s.cu.state = .darkHold → (t.array a).ordered = r.ordered)

/-- Release (R125, R126): at the end of the release delay, while the condition holds, the release claim is offered, for each
defined array that is not LAPSED what its exposure lacks of its level outside engagement, or waits for an outstanding raise
claim, while an outstanding release claim leaves nothing waiting (log 66); a whole acceptance takes ENGAGED to WATCH, or back
to ENGAGED where R124 engages at once, and DISENGAGING to OFF, with CURTAIL RELEASED, and orders each array to its level, or
to its exposure where that is below by then (log 58); a clipped one orders the raised arrays as R129 gives, and keeps the
state. The RA's taking of a claim on HELD arrays hands the accepted amount out in their order, raises each claimed cap by its
part alone and answers (R8, R126, R128). No order goes to an array that is LAPSED, unreachable or refusing (log 22), and what
has passed a claimed cap is log 51. The release delay is idle from its end until the claim is answered, and while the claim
waits: the model's choice (log 73). So is an answer taken outside RUN and RESTORE, or outside ENGAGED and DISENGAGING, which ends
the claim and nothing else (log 88). -/
def Obligations.ReleaseClaimsAndTheirAnswers : Prop :=
  ∀ s : State, s.inReset = false →
    let engaged : Prop := (s.cu.state = .engaged ∨ s.cu.state = .disengaging) ∧ s.active = true
    (let c := Instr.releaseDelayExpiry;
      (s.cu.releaseDelay = none → exec c s = .next (s.took c))
      ∧ (s.cu.releaseDelay ≠ none → ¬ (engaged ∧ s.releaseHolds = true) →
          exec c s = .next { s.took c with cu := { s.cu with releaseDelay := none } })
      ∧ (s.cu.releaseDelay ≠ none → engaged → s.releaseHolds = true →
          (s.cu.claim = some .raise → exec c s = .next { s.took c with
            cu := { s.cu with releaseDelay := none, releaseWaiting := true } })
          ∧ (s.cu.claim = some .release → exec c s = .next { s.took c with cu := { s.cu with releaseDelay := none } })
          ∧ (s.cu.claim = none → ∃ t, exec c s = .next t ∧ s.onlyCurtailment t
            ∧ t.events = (s.took c).events ++ [.posting (.exposureRaise .release s.releaseNeeds)]
            ∧ t.cu = { s.cu with releaseDelay := none, claim := some .release, arrays := t.cu.arrays }
            ∧ ∀ a, t.array a = { s.array a with lowered := false })))
      ∧ (∀ a n, (a, n) ∈ s.releaseNeeds ↔ (s.array a).definition ≠ none ∧ (s.array a).state ≠ .lapsed ∧ 0 < n
          ∧ (s.array a).exposure + n = (if s.cu.state = .disengaging then (s.array a).nameplate
            else min (s.array a).nameplate (s.share a).limit))
      ∧ (∀ whole raised, let c := Instr.releaseClaimAnswer whole raised
        (¬ engaged → exec c s = .next { s.took c with cu := { s.cu with claim := none } })
        ∧ (engaged → whole = true → ∃ t, exec c s = .next t ∧ s.onlyCurtailment t ∧ t.cu.claim = none ∧ t.targeted
            ∧ (∀ a, s.sameArray t a) ∧ .noticeRaise .curtailReleased ∈ t.events
            ∧ t.cu.state = (if s.cu.state = .disengaging then .off else if s.engages then .engaged else .watch)
            ∧ (t.cu.state ≠ .engaged → t.cu.releaseDelay = none ∧ ∀ a, s.releasedTo t a))
        ∧ (engaged → whole = false → ∃ t, exec c s = .next t ∧ s.onlyCurtailment t ∧ (∀ a, s.sameArray t a)
            ∧ t.cu = { s.cu with
                claim := none, arrays := t.cu.arrays
                releaseDelay := if s.releaseHolds then some (s.setting .releaseDelay * 1000) else none }
            ∧ ∀ a, let r := s.array a
              let passed (cap : Kw) : Prop := r.lowered = true ∧ r.targetLevel < cap
              (a ∉ raised ∨ (∃ cap, r.claimed = some cap ∧ passed cap) → t.array a = r)
              ∧ ∀ cap, a ∈ raised → r.claimed = some cap → ¬ passed cap → r.isHeld = true → s.mayOrder a = true →
                (r.nameplate ≤ cap ∧ r.target = some .unheld → t.orderedBy a .release .unheld false)
                ∧ (¬ (r.nameplate ≤ cap ∧ r.target = some .unheld) →
                  t.orderedBy a (.hold cap (s.setting .holdLength)) (.kw cap) false)))
      ∧ ∀ (k : ClaimKind) (needs : List (ArrayNo × Kw)), (needs.map Prod.fst).Nodup →
          (∀ a n, (a, n) ∈ needs → (s.array a).isHeld = true ∧ (s.array a).exposure + n ≤ (s.array a).nameplate) →
          let c := Instr.posting (.exposureRaise k needs)
          let sum := sumOver Prod.snd needs
          let x := s.clipRaise sum
          let got (j : Nat) (n : Kw) : Kw := min n (x - sumOver Prod.snd (needs.take j))
          ∃ t raised, exec c s = .next t ∧ s.onlyCurtailment t ∧ t.exposure = s.exposure + x
          ∧ (∀ b, b ∉ needs.map Prod.fst → t.array b = s.array b)
          ∧ (∀ j a n, needs[j]? = some (a, n) → t.array a =
              if got j n = 0 then s.array a else { s.array a with claimed := some ((s.array a).exposure + got j n) })
          ∧ (∀ a, a ∈ raised ↔ ∃ j n, needs[j]? = some (a, n) ∧ got j n ≠ 0)
          ∧ (k = .raise → .raiseClaimAnswer raised ∈ t.events)
          ∧ (k = .release → .releaseClaimAnswer (x == sum) raised ∈ t.events)

/-! ## Island Controller -/

/-- RUN, RESTART and FINISH RESTORE (R141, R142, R145, R147, R156, R157): RUN in SETUP, with a poll list, a genset and no merit
held twice, enters RUN with the held bus LIVE, the feeders in contact with a CLOSED breaker in the Adoption Set and an
adoption asked for, and DARK with it DEAD; RESTART in DARK with the held bus DEAD and a lead named enters RESTART with no
suspension and no rounds; FINISH RESTORE in RESTORE enters RUN. Elsewhere each is refused. The tellings of a new state, their
recipients and their order, are the model's (log 40), with the tag of an adoption (log 26) and WRONG STATE ahead of CONFIG
(log 43). -/
def Obligations.RunRestartAndFinishRestore : Prop :=
  ∀ s : State, s.inReset = false →
    let configured : Prop := s.flc.pollList ≠ [] ∧ (∃ g, (s.genset g).profile ≠ none)
      ∧ ∀ g k p q, g ≠ k → (s.genset g).profile = some p → (s.genset k).profile = some q → p.merit ≠ q.merit
    (s.ic.state ≠ .setup → exec .run s = .next ((s.took .run).repliedRefused 0x50 .wrongState))
      ∧ (s.ic.state = .setup → ¬ configured → exec .run s = .next ((s.took .run).repliedRefused 0x50 .config))
      ∧ (s.ic.state = .setup → configured → s.ic.heldLive = true → ∃ found : List FeederNo,
          (∀ f, f ∈ found ↔ s.contactOf (.feeder f) = .inContact ∧ (s.feeder f).breaker = .closed)
          ∧ exec .run s = .next (State.replied
            { s.took .run with
              ic := { s.ic with state := .run, adoptionSet := found }
              events := (s.took .run).events
                ++ [.adoptionRequest .run, .noticeRaise .islandState, .raIslandState .setup .run, .seIslandState .run,
                    .gsIslandState .run, .cuRunEntry .setup, .flcIslandState .run] } 0x50 [1]))
      ∧ (s.ic.state = .setup → configured → s.ic.heldLive = false →
          ∃ t, exec .run s = .next t ∧ State.darkEntered (s.replied 0x50 [2]) t)
      ∧ (s.ic.state ≠ .dark ∨ s.ic.heldLive = true →
          exec .restart s = .next ((s.took .restart).repliedRefused 0x51 .wrongState))
      ∧ (s.ic.state = .dark → s.ic.heldLive = false → s.ic.leadOrder = [] →
          exec .restart s = .next ((s.took .restart).repliedRefused 0x51 .config))
      ∧ (∀ g l, s.ic.state = .dark → s.ic.heldLive = false → s.ic.leadOrder = g :: l →
          ∃ t, exec .restart s = .next t ∧ State.restartEntered
            { s.replied 0x51 [] with ic := { s.ic with suspended := false, rounds := 0 } } g t)
      ∧ (s.ic.state = .restore → ∃ t, exec .finishRestore s = .next t ∧ State.runEntered (s.replied 0x52 []) t)
      ∧ (s.ic.state ≠ .restore →
          exec .finishRestore s = .next ((s.took .finishRestore).repliedRefused 0x52 .wrongState))

/-- SET RESTORE ENTRY and SET LEAD ORDER (R150, R151) replace, append, remove or write whole what they name, and refuse what is
out of range, held twice or in use. STAND DOWN and RESUME (R158) set and clear stand-down, which is complete while both quiet
marks hold; STAND DOWN COMPLETE is raised when it becomes so, and a changed quiet mark judges it again. RESUME has the AE serve
its lists, no candidate being named: in RUN the head of the Wait Queue is admitted where it fits (R40, R47), and where none waits
or is served the release that R36 allows is made. Then the SE names the restore candidate that fits (R68), the GS judges demand
(R86), here with both lanes taken, or with lane A IDLE takes the head of the Start Queue, here a STATION entry HELD on a report
without READY (R87), and in RESTORE, the SE IDLE, the walk goes on: it asks again for the entry it asked for, or advances where
the entry ended or settled in the pause (R152). CONFIG ahead of RESTORING and of WRONG STATE is the model's order of the tests
(log 43), RESUME's judgements are one event in this order (log 25), and a removal looks at no pickup kW and no settle delay
(log 61). -/
def Obligations.RestoreListLeadOrderAndStandDown : Prop :=
  ∀ s : State, s.inReset = false →
    let completed (q : Bool) : List Instr := if q = true ∧ s.ic.complete = false then [.noticeRaise .standDownComplete] else []
    let u : State := { s with ic := { s.ic with standDown := false, complete := false } }
    (∀ position feeder pickup settle, let c := Instr.setRestoreEntry position feeder pickup settle
      let refused (r : Reason) : State := (s.took c).repliedRefused 0x53 r
      let put (l : List RestoreEntry) : State :=
        State.replied { s.took c with ic := { s.ic with restoreList := l } } 0x53 []
      let before := s.ic.restoreList.take position
      let after := s.ic.restoreList.drop (position + 1)
      (23 < position ∨ s.ic.restoreList.length < position
          ∨ (feeder ≠ 255 ∧ (24 ≤ feeder ∨ 16000 < pickup ∨ 600 < settle)) → exec c s = .next (refused .outOfRange))
      ∧ (position ≤ 23 → position ≤ s.ic.restoreList.length → feeder = 255 →
          exec c s = .next (if s.ic.state = .restore then refused .restoring else put before))
      ∧ (∀ f : FeederNo, position ≤ 23 → position ≤ s.ic.restoreList.length → feeder = f.val → pickup ≤ 16000 →
          settle ≤ 600 →
          ((∃ e ∈ before ++ after, e.feeder = f) → exec c s = .next (refused .config))
          ∧ ((∀ e ∈ before ++ after, e.feeder ≠ f) → exec c s = .next (if s.ic.state = .restore then refused .restoring
              else put (before ++ { feeder := f, pickup := pickup, settle := settle } :: after)))))
      ∧ (∀ l, 6 < l.length ∨ (∃ n ∈ l, 6 ≤ n) →
          exec (.setLeadOrder l) s = .next ((s.took (.setLeadOrder l)).repliedRefused 0x54 .outOfRange))
      ∧ (∀ l : List GensetNo, l.length ≤ 6 → let c := Instr.setLeadOrder (l.map Fin.val)
        (¬ l.Nodup → exec c s = .next ((s.took c).repliedRefused 0x54 .config))
        ∧ (l.Nodup → s.ic.state = .restart → exec c s = .next ((s.took c).repliedRefused 0x54 .wrongState))
        ∧ (l.Nodup → s.ic.state ≠ .restart → exec c s = .next
            (State.replied { s.took c with ic := { s.ic with leadOrder := l } } 0x54 [])))
      ∧ (s.active = false → exec .standDown s = .next ((s.took .standDown).repliedRefused 0x55 .wrongState))
      ∧ (s.active = true → s.ic.standDown = true → exec .standDown s = .next ((s.took .standDown).replied 0x55 []))
      ∧ (s.active = true → s.ic.standDown = false →
          let q := s.ic.releaseQuiet && s.ic.sequencerQuiet
          exec .standDown s = .next (State.replied
            { s.took .standDown with
              ic := { s.ic with standDown := true, complete := q }
              events := (s.took .standDown).events ++ completed q } 0x55 []))
      ∧ (s.ic.standDown = false → exec .resume s = .next ((s.took .resume).replied 0x56 []))
      ∧ (s.ic.standDown = true → ∃ t, exec .resume s = .next t ∧ t.ic.standDown = false ∧ t.ic.complete = false
          ∧ (let ended : Prop := (s.ic.walkPhase = some .waitGrant ∧ s.ic.walkPermit = none)
              ∨ (s.ic.walkPhase = some .settle ∧ s.ic.settle = some 0)
            let asks : Prop := s.ic.walkPhase = some .next ∨ s.ic.walkPhase = some .waitFit
            let walks : Prop := s.ic.state = .restore ∧ s.se.state = .idle ∧ (ended ∨ asks)
            let waits : Prop := s.ic.state = .run ∧ s.ae.waitQueue ≠ []
            (¬ walks → t.ic = u.ic)
            ∧ (∀ e, walks → asks → s.ic.restoreList[s.ic.walkPointer]? = some e → s.walkable e →
                t.ic = u.ic ∧ .walkPermitRequest e.feeder (s.asked e) ∈ t.events)
            ∧ (walks → ended → State.walkAdvanced { t with ic := u.ic } t)
            ∧ (∀ i l, s.listsExact → s.ae.candidate = none → s.ic.state = .run → s.ae.waitQueue = i :: l →
                let p := s.permit i
                ((p.requested : Int) ≤ s.headroom → i ∉ t.ae.waitQueue ∧ (t.permit i).requested = p.requested
                  ∧ (t.permit i).state = (if p.ofFeeder then .staging else .granted) ∧ (t.permit i).gen = p.gen
                  ∧ (p.ofFeeder = true → ∃ k, t.ae.releaseList = s.ae.releaseList ++ i :: k))
                ∧ (s.headroom < p.requested → 0 < p.requested →
                    t.ae.waitQueue = s.ae.waitQueue ∧ ∀ j, t.permit j = s.permit j))
            ∧ (s.ae.candidate = none → ¬ waits →
                (∀ i f, s.ae.stepGuard = none → s.ae.inFlight = none → 0 ≤ s.headroom → 0 < s.stepAcceptance →
                  (s.took .resume).releaseTarget = some i → (s.permit i).holder = some (.feeder f) →
                  let p := s.permit i
                  let kw := p.released + min (p.requested - p.released) s.stepAcceptance
                  let h : Handle := ⟨i.val, p.gen⟩
                  t.ae.inFlight = some { handle := h, feeder := f, kw := kw } ∧ .orderPlacement
                    { target := .feeder f, order := .grant h kw true, owner := .ae, urgent := false } ∈ t.events)
                ∧ (∀ k, s.active = true → s.se.state = .idle → s.se.naming = none → s.restoreCandidate = some k →
                  ((s.permit k).requested + s.setting .restoreMargin : Int) ≤ s.headroom →
                  let h : Handle := ⟨k.val, (s.permit k).gen⟩
                  t.se.naming = some h ∧ t.ae.candidate = some h ∧ .shedListCandidateNamed h ∈ t.events)
                ∧ (s.gs.laneA ≠ none → s.gs.laneB ≠ none → u.demandJudged t ∧ t.gs.gensets = s.gs.gensets
                  ∧ t.gs.laneA = s.gs.laneA ∧ t.gs.laneB = s.gs.laneB))
            ∧ (∀ k rest, s.lanesConsistent → s.active = true → s.gs.laneA = none → s.gs.laneB ≠ none →
                s.gs.queue = { genset := k, origin := .station } :: rest → (s.genset k).report.ready = false →
                s.takenHeld t .a k .station (s.genset k)))
          ∧ t = { s.replied 0x56 [] with
              events := t.events, needs := t.needs, ae := t.ae, se := t.se, gs := t.gs, ic := t.ic })
      ∧ (∀ mark quiet, let c := Instr.quietMarkChange mark quiet
        let released := if mark = .release then quiet else s.ic.releaseQuiet
        let sequenced := if mark = .sequencer then quiet else s.ic.sequencerQuiet
        let q := s.ic.standDown && released && sequenced
        exec c s = .next
          { s.took c with
            ic := { s.ic with releaseQuiet := released, sequencerQuiet := sequenced, complete := q }
            events := (s.took c).events ++ completed q })

/-- BUSLIVE takes a level (R139, R196): with the held bus LIVE the dead-bus confirm timer runs while BUSLIVE reads dead; with it
DEAD the live-bus one runs while it reads live, and in RUN and RESTORE the dead-bus one runs while it reads dead. A
confirmation sets the held bus and acts by island state (R140, R144, R146, R149); the holdoff's end enters RESTART where R144
allows. A confirmation or an expiry of a timer that does not run does nothing. A live confirmation during a pending decision
sets the held bus alone (log 45); an adoption carries its tag (log 26). While the part is held in reset a change moves the level
of the pin alone (R193, log 27). -/
def Obligations.BusLevelsConfirmTimersAndConfirmations : Prop :=
  (∀ (s : State) live, s.inReset = true →
    exec (.busliveChange live) s = .next { s with pins := { s.pins with buslive := live } })
  ∧ ∀ s : State, s.inReset = false →
    let dead : Timer := some (s.setting .deadBusConfirm * 100)
    let alive : Timer := some (s.setting .liveBusConfirm * 100)
    let given (c : Instr) (i : Island) (told : List Instr) : State :=
      { s.took c with ic := i, events := (s.took c).events ++ told }
    let d := Instr.deadBusConfirmation
    let l := Instr.liveBusConfirmation
    let h := Instr.restartHoldoffExpiry
    let down := { s.ic with deadConfirm := none, heldLive := false }
    let up := { s.ic with liveConfirm := none, heldLive := true }
    (∀ live, exec (.busliveChange live) s = .next
        { s.took (.busliveChange live) with
          pins := { s.pins with buslive := live }
          ic :=
            if s.pins.buslive = live then s.ic
            else if s.ic.heldLive then
              (if live then { s.ic with deadConfirm := none } else { s.ic with deadConfirm := dead, liveConfirm := none })
            else if live then { s.ic with liveConfirm := alive, deadConfirm := none }
            else { s.ic with
              liveConfirm := none
              deadConfirm := if s.ic.state = .run ∨ s.ic.state = .restore then dead else none } })
      ∧ (s.ic.deadConfirm = none → exec d s = .next (s.took d))
      ∧ (s.ic.deadConfirm ≠ none →
          (s.ic.state = .run ∨ s.ic.state = .restore →
            ∃ t, exec d s = .next t ∧ State.darkEntered { s with ic := down } t)
          ∧ (s.ic.state = .dark → exec d s = .next (given d { down with
              foreignLive := false, liveConfirm := none, holdoff := some (s.setting .restartHoldoff * 1000) } []))
          ∧ (s.ic.state = .setup ∨ s.ic.state = .restart → exec d s = .next (given d down [])))
      ∧ (s.ic.liveConfirm = none → exec l s = .next (s.took l))
      ∧ (s.ic.liveConfirm ≠ none →
          (s.ic.state = .setup ∨ s.ic.state = .run ∨ s.ic.state = .restore → exec l s = .next (given l up []))
          ∧ (s.ic.state = .dark → exec l s = .next (given l
              { up with
                holdoff := none, liveConfirm := if s.ic.foreignLive ∧ s.pins.buslive then alive else none }
              [.adoptionRequest .dark]))
          ∧ (s.ic.state = .restart → s.ic.decision ≠ none → exec l s = .next (given l up []))
          ∧ (s.ic.state = .restart → s.ic.decision = none → exec l s = .next (given l { up with decision := some {} }
              ((s.ic.lead.map Instr.icLaneAbort).toList ++ [.adoptionRequest .decision]))))
      ∧ (s.ic.holdoff = none → exec h s = .next (s.took h))
      ∧ (s.ic.holdoff ≠ none →
          let restarts : Prop := s.ic.state = .dark ∧ s.setting .autoRestart = 1 ∧ s.ic.suspended = false
            ∧ s.ic.heldLive = false
          (¬ restarts ∨ s.ic.leadOrder = [] → exec h s = .next (given h { s.ic with holdoff := none } []))
          ∧ (∀ g rest, restarts → s.ic.leadOrder = g :: rest → ∃ t, exec h s = .next t ∧ s.restartEntered g t))

/-- The current lead's outcome (R148): ONLINE enters RESTORE; a failure or a refusal asks for the next lead, and with none left
counts a round, suspends at the round limit, raises RESTART FAILED and returns to DARK; any other outcome does nothing. The
adoption answer in DARK (R146): a genset named enters RESTORE, none marks the bus foreign-live. Of a live decision each answer
is kept until both are there, and then the decision is made (R149). A feeder leaves the Adoption Set on request and on loss
(R142). The adoption's tag is log 26. That an answer taken after a dead-bus confirmation marks the bus as well is log 36, and
that one taken in DARK counts whichever stay in DARK asked for it is log 75. -/
def Obligations.LeadOutcomesAdoptionAnswersAndDecisions : Prop :=
  ∀ s : State, s.inReset = false →
    (∀ o g online, (o = .online g ∧ online = true) ∨ (((∃ why, o = .failed g why) ∨ o = .refused g) ∧ online = false) →
      let c := Instr.leadOutcome o
      let lost := min 5 (s.ic.rounds + 1)
      (s.ic.state ≠ .restart ∨ s.ic.lead ≠ some g → exec c s = .next (s.took c))
      ∧ (s.ic.state = .restart → s.ic.lead = some g →
          (s.ic.decision = none → online = true → ∃ t, exec c s = .next t ∧ s.restoreEntered t)
          ∧ (∀ k, s.ic.decision = none → online = false → s.ic.leadOrder[s.ic.leadIndex + 1]? = some k →
            exec c s = .next
              { s.took c with
                ic := { s.ic with leadIndex := s.ic.leadIndex + 1, lead := some k }
                events := (s.took c).events ++ [.leadStartRequest k] })
          ∧ (s.ic.decision = none → online = false → s.ic.leadOrder[s.ic.leadIndex + 1]? = none →
            ∃ t, exec c s = .next t ∧ .noticeRaise .restartFailed ∈ t.events
              ∧ State.darkEntered { s with ic := { s.ic with
                  rounds := lost, suspended := s.ic.suspended || decide (s.setting .restartRounds ≤ lost) } } t)
          ∧ (∀ d, s.ic.decision = some d →
            (d.adoption = none → exec c s = .next
              { s.took c with ic := { s.ic with decision := some { d with lead := some (d.lead.getD online) } } })
            ∧ (∀ adopted, d.adoption = some adopted →
              ∃ t, exec c s = .next t ∧ s.decided (d.lead.getD online) adopted t))))
      ∧ (∀ why found, let c := Instr.adoptionAnswer why found
        (why = .run ∨ (why = .dark ∧ s.ic.state ≠ .dark)
            ∨ (why = .decision ∧ (s.ic.state ≠ .restart ∨ s.ic.decision = none)) → exec c s = .next (s.took c))
        ∧ (why = .dark → s.ic.state = .dark →
            (found ≠ [] → ∃ t, exec c s = .next t ∧ s.restoreEntered t)
            ∧ (found = [] → s.ic.foreignLive = true → exec c s = .next (s.took c))
            ∧ (found = [] → s.ic.foreignLive = false → exec c s = .next
              { s.took c with
                ic := { s.ic with
                  foreignLive := true
                  liveConfirm := if s.pins.buslive then some (s.setting .liveBusConfirm * 100) else s.ic.liveConfirm }
                events := (s.took c).events ++ [.noticeRaise .foreignLive] }))
        ∧ (∀ d, why = .decision → s.ic.state = .restart → s.ic.decision = some d →
            (d.lead = none → exec c s = .next
              { s.took c with ic := { s.ic with decision := some { d with adoption := some (!found.isEmpty) } } })
            ∧ (∀ lead, d.lead = some lead → ∃ t, exec c s = .next t ∧ s.decided lead (!found.isEmpty) t)))
      ∧ ∀ f c, c = .adoptionSetRemoval f ∨ c = .icFeederLost f → exec c s = .next
          { s.took c with ic := { s.ic with adoptionSet := s.ic.adoptionSet.filter fun k => k != f } }

/-- The walk permit (R153, R154, R155): the AE makes a STAGING permit that fits, whatever waits, at the tail of the Release List
(R35), its feeder sent a confirming GRANT with nothing released unless the SE holds the slot (R22, R39), and refuses one that does
not, its slot's generation raised; a feeder that has a permit by then is refused as well (log
42). The answer, which carries the feeder and the kW asked (log 26), gives WAIT GRANT, or after the first refusal WAIT FIT with
the IC need at that kW (in 1 to 16,000, log 52); a further refusal leaves the need as it is. The permit's GRANTED starts the
settle timer, which in a pause holds at its end (log 37), or advances the walk with a delay of 0; its leaving STAGING otherwise
marks the entry skipped and advances, after the pause where the walk is paused. What is not the walk's own outcome does nothing
(log 16). An answer is taken as the present entry's by its feeder and the phase alone (log 90). -/
def Obligations.WalkPermitsAreAskedAnsweredAndFollowed : Prop :=
  ∀ s : State, s.inReset = false →
    (∀ f kw, let c := Instr.walkPermitRequest f kw
      (s.permitOf f ≠ none ∨ s.freeSlot = none → exec c s = .next ((s.took c).push (.walkPermitAnswer ⟨f, kw, none⟩)))
      ∧ (∀ i, s.listsExact → s.permitOf f = none → s.freeSlot = some i → ∃ t, exec c s = .next t ∧ s.onlyAdmission t
          ∧ t.ae.arrivals = min (s.ae.arrivals + 1) 0xFFFFFFFF
          ∧ ((kw : Int) ≤ s.headroom → (t.permit i).state = .staging ∧ (t.permit i).holder = some (.feeder f)
              ∧ (∃ l, t.ae.releaseList = s.ae.releaseList ++ i :: l)
              ∧ (t.permit i).cls = (s.feeder f).cls ∧ (t.permit i).requested = kw ∧ (t.permit i).released = 0
              ∧ (t.permit i).gen = (s.permit i).gen
              ∧ (s.seHolds f = false → .orderPlacement { target := .feeder f, order := .grant ⟨i.val, (s.permit i).gen⟩ 0 false
                                                         owner := .ae, urgent := false } ∈ t.events)
              ∧ .walkPermitAnswer ⟨f, kw, some ⟨i.val, (s.permit i).gen⟩⟩ ∈ t.events)
          ∧ (1 ≤ kw → s.headroom < kw → t.permit i = { gen := nextGen (s.permit i).gen } ∧ s.otherPermits t i
              ∧ t.events = (s.took c).events ++ [.walkPermitAnswer ⟨f, kw, none⟩])))
      ∧ (∀ f kw answer, let c := Instr.walkPermitAnswer ⟨f, kw, answer⟩
        let waits : Prop := s.ic.state = .restore ∧ (s.ic.walkPhase = some .next ∨ s.ic.walkPhase = some .waitFit)
          ∧ ∃ e, s.ic.restoreList[s.ic.walkPointer]? = some e ∧ e.feeder = f
        (¬ waits → exec c s = .next (s.took c))
        ∧ (∀ h, waits → answer = some h → ∃ t, exec c s = .next t ∧ s.onlyIsland t
            ∧ t.ic = { s.ic with walkPermit := some h, walkPhase := some .waitGrant }
            ∧ t.needs = { s.needs with ic := none })
        ∧ (waits → answer = none → s.ic.walkPhase = some .next → 1 ≤ kw → kw ≤ 16000 → ∃ t, exec c s = .next t
            ∧ s.onlyIsland t ∧ t.ic = { s.ic with walkPhase := some .waitFit } ∧ t.needs = { s.needs with ic := some kw })
        ∧ (waits → answer = none → s.ic.walkPhase = some .next → kw = 0 ∨ 16000 < kw →
            exec c s = .next { s.took c with ic := { s.ic with walkPhase := some .waitFit } })
        ∧ (waits → answer = none → s.ic.walkPhase = some .waitFit → exec c s = .next (s.took c)))
      ∧ (∀ h granted, let c := Instr.walkPermitOutcome h granted
        let own : Prop := s.ic.state = .restore ∧ s.ic.walkPhase = some .waitGrant ∧ s.ic.walkPermit = some h
        let skipped (e : RestoreEntry) : Island :=
          { s.ic with restoreList := s.ic.restoreList.set s.ic.walkPointer { e with skip := true }, walkPermit := none }
        (¬ own → exec c s = .next (s.took c))
        ∧ (∀ e, own → s.ic.restoreList[s.ic.walkPointer]? = some e →
            (granted = true → e.settle ≠ 0 ∨ s.paused = true → exec c s = .next
              { s.took c with ic := { s.ic with walkPhase := some .settle, settle := some (e.settle * 1000) } })
            ∧ (granted = true → e.settle = 0 → s.paused = false → ∃ t, exec c s = .next t ∧ s.walkAdvanced t)
            ∧ (granted = false → s.paused = true → exec c s = .next { s.took c with ic := skipped e })
            ∧ (granted = false → s.paused = false →
              ∃ t, exec c s = .next t ∧ State.walkAdvanced { s with ic := skipped e } t)))

/-- The walk goes on (R152, R154, R155): the settle timer's end advances it, and is held at its end where the walk is paused (log
37); each headroom rise in WAIT FIT takes the entry afresh, asking again for one that may be walked and passing over one that
may not, its need cleared; a permit that the entry's feeder already holds is taken as its walk permit, a GRANTED one going to
SETTLE, a STAGING one to WAIT GRANT, any other ending the entry (R153), the IC need cleared each time, the model's choice, since
R154 does not name this event (log 42); the SE's return to IDLE does so in NEXT and WAIT FIT,
and advances a walk whose entry ended or settled in the pause. Where nothing of this holds nothing changes. -/
def Obligations.WalkGoesOnAfterTimersRisesAndPauses : Prop :=
  ∀ s : State, s.inReset = false →
    let takes (c : Instr) : Prop := ∀ e, s.ic.restoreList[s.ic.walkPointer]? = some e →
      (s.walkable e → exec c s = .next ((s.took c).push (.walkPermitRequest e.feeder (s.asked e))))
      ∧ (s.passedOver e → ∃ t, exec c s = .next t ∧ State.walkAdvanced
          { s with
            needs := { s.needs with ic := none }
            ic := { s.ic with restoreList := s.ic.restoreList.set s.ic.walkPointer { e with skip := true } } } t)
      ∧ ∀ i, ¬ s.passedOver e → s.permitOf e.feeder = some i →
        let cleared : Needs := { s.needs with ic := none }
        let took : Island := { s.ic with walkPermit := some ⟨i.val, (s.permit i).gen⟩ }
        ((s.permit i).state = .granted → e.settle ≠ 0 → ∃ t, exec c s = .next t ∧ s.onlyIsland t ∧ t.needs = cleared
          ∧ t.ic = { took with walkPhase := some .settle, settle := some (e.settle * 1000) })
        ∧ ((s.permit i).state = .granted → e.settle = 0 →
          ∃ t, exec c s = .next t ∧ State.walkAdvanced { s with needs := cleared } t)
        ∧ ((s.permit i).state = .staging → ∃ t, exec c s = .next t ∧ s.onlyIsland t ∧ t.needs = cleared
          ∧ t.ic = { took with walkPhase := some .waitGrant })
        ∧ ((s.permit i).state ≠ .granted → (s.permit i).state ≠ .staging → ∃ t, exec c s = .next t ∧ State.walkAdvanced
          { s with
            needs := cleared
            ic := { s.ic with restoreList := s.ic.restoreList.set s.ic.walkPointer { e with skip := true } } } t)
    (let c := Instr.settleExpiry;
      (s.ic.settle = none → exec c s = .next (s.took c))
      ∧ (s.ic.settle ≠ none → s.paused = true → exec c s = .next { s.took c with ic := { s.ic with settle := some 0 } })
      ∧ (s.ic.settle ≠ none → s.paused = false → ∃ t, exec c s = .next t ∧ s.walkAdvanced t))
      ∧ (let c := Instr.icHeadroomRise;
        let waits : Prop := s.ic.state = .restore ∧ s.ic.walkPhase = some .waitFit ∧ s.paused = false
        (¬ waits → exec c s = .next (s.took c)) ∧ (waits → takes c))
      ∧ exec (.seIdleTelling false) s = .next (s.took (.seIdleTelling false))
      ∧ (let c := Instr.seIdleTelling true;
        let off : Prop := s.ic.state ≠ .restore ∨ s.paused = true
        let asks : Prop := s.ic.walkPhase = some .next ∨ s.ic.walkPhase = some .waitFit
        let ended : Prop := (s.ic.walkPhase = some .waitGrant ∧ s.ic.walkPermit = none)
          ∨ (s.ic.walkPhase = some .settle ∧ s.ic.settle = some 0)
        (off ∨ s.ic.walkPhase = none → exec c s = .next (s.took c))
        ∧ (s.ic.walkPhase = some .waitGrant ∨ s.ic.walkPhase = some .settle → ¬ ended → exec c s = .next (s.took c))
        ∧ (¬ off → asks → takes c)
        ∧ (¬ off → ended → ∃ t, exec c s = .next t ∧ s.walkAdvanced t))

/-! ## Field Loop Controller -/

/-- SET UNIT and SET POLL LIST (R160, R161, R162) are refused outside SETUP unless stand-down is complete in RUN or RESTORE. SET
UNIT binds an address to a record, or leaves it VACANT: the entry's contact is UNKNOWN, its slot empty, both records'
addresses follow, the old one's blocks are told of its loss and the owner of an order that was in the slot of its emptying,
and the REPLY of a turn under way to the address is to be discarded; nothing else of any record changes. SET POLL LIST
replaces the whole list, and the next poll turn takes its entry 0. An IDLE loop chooses a turn at once on a SET UNIT that binds
an address and on a SET POLL LIST that is taken (R164). What is out of range, bound elsewhere or listed more than four times is
refused. The model's own: the contact UNKNOWN and missed count 0 of an entry made VACANT (log 77), the one telling of an order
that is gone with its cause (log 24), and the order of the tests, PROTECTED ahead of OUT OF RANGE and OUT OF RANGE ahead of
CONFIG (log 43). -/
def Obligations.DirectoryAndPollListAreEditedWhole : Prop :=
  ∀ s : State, s.inReset = false →
    let allowed : Prop := s.ic.state = .setup ∨ (s.active = true ∧ s.ic.complete = true)
    (∀ address kind record, let c := Instr.setUnit address kind record
      let refused (r : Reason) : State := (s.took c).repliedRefused 0x60 r
      let named (b : Option UnitRec) : Prop := (kind = 0 ∧ b = none)
        ∨ (∃ f : FeederNo, kind = 1 ∧ record = f.val ∧ b = some (.feeder f))
        ∨ (∃ g : GensetNo, kind = 2 ∧ record = g.val ∧ b = some (.genset g))
        ∨ (∃ a : ArrayNo, kind = 3 ∧ record = a.val ∧ b = some (.array a))
      (¬ allowed → exec c s = .next (refused .protected_))
      ∧ (allowed → address = 0 ∨ 32 < address ∨ (∀ b, ¬ named b) → exec c s = .next (refused .outOfRange))
      ∧ (∀ (u : Addr) (b : Option UnitRec), allowed → address = u.val + 1 → named b →
          ((s.entry u).bound = b → exec c s = .next ((s.took c).replied 0x60 []))
          ∧ (∀ r, (s.entry u).bound ≠ b → b = some r → s.addrOf r ≠ none → exec c s = .next (refused .config))
          ∧ ((s.entry u).bound ≠ b → (∀ r, b = some r → s.addrOf r = none) → ∃ t, exec c s = .next t
            ∧ t.entry u = { bound := b, contact := .unknown, missed := 0, orderNo := (s.entry u).orderNo, slot := none }
            ∧ (∀ v, v ≠ u → t.entry v = s.entry v)
            ∧ (∀ r, t.addrOf r = if b = some r then some u else if (s.entry u).bound = some r then none else s.addrOf r)
            ∧ t.flc.urgent = (s.flc.urgent.filter fun a => a != u) ∧ t.flc.pollList = s.flc.pollList
            ∧ (∀ r, (s.entry u).bound = some r → (∀ i ∈ contactTellings r .lost, i ∈ t.events)
              ∧ ∀ o, (s.entry u).slot = some o → .supersessionNotice o.owner r o.order .emptied ∈ t.events)
            ∧ (let marked (turn : Turn) : Turn := { turn with discard := turn.discard || turn.addr == u }
              (∀ turn frame, s.flc.loop = .sending turn frame → t.flc.loop = .sending (marked turn) frame)
              ∧ (∀ turn left, s.flc.loop = .awaiting turn left → t.flc.loop = .awaiting (marked turn) left)
              ∧ (∀ turn, s.flc.loop = .receiving turn → t.flc.loop = .receiving (marked turn))
              ∧ ∀ left, s.flc.loop = .gap left → t.flc.loop = .gap left)
            ∧ (s.flc.loop ≠ .idle ∨ b = none → t.flc.cursor = s.flc.cursor)
            ∧ (s.flc.loop = .idle → (b = none → t.flc.loop = .idle) ∧ (b ≠ none → t.turnChosen s.flc.cursor))
            ∧ (∀ f, t.feeder f = { s.feeder f with addr := (t.feeder f).addr })
            ∧ (∀ g, t.genset g = { s.genset g with addr := (t.genset g).addr })
            ∧ (∀ a, t.array a = { s.array a with addr := (t.array a).addr })
            ∧ t = { s.replied 0x60 [] with
                events := t.events, flc := t.flc, se := { s.se with feeders := t.se.feeders }
                gs := { s.gs with gensets := t.gs.gensets }, cu := { s.cu with arrays := t.cu.arrays } })))
      ∧ (∀ l : List Nat, let c := Instr.setPollList l
        (¬ allowed → exec c s = .next ((s.took c).repliedRefused 0x61 .protected_))
        ∧ (allowed → 48 < l.length ∨ (∃ a ∈ l, a = 0 ∨ 32 < a) →
            exec c s = .next ((s.took c).repliedRefused 0x61 .outOfRange)))
      ∧ (∀ l : List Addr, let c := Instr.setPollList (l.map fun u => u.val + 1)
        let taken : Prop := (∀ u, l.count u ≤ 4) ∧ (l = [] → s.ic.state = .setup)
        (allowed → l.length ≤ 48 → ¬ taken → exec c s = .next ((s.took c).repliedRefused 0x61 .config))
        ∧ (allowed → l.length ≤ 48 → taken → ∃ t, exec c s = .next t ∧ State.onlyLoop (s.replied 0x61 []) t
            ∧ t.flc = { s.flc with pollList := l, cursor := t.flc.cursor, loop := t.flc.loop }
            ∧ (s.flc.loop ≠ .idle → t.flc.cursor = 0 ∧ t.flc.loop = s.flc.loop)
            ∧ (s.flc.loop = .idle → t.turnChosen 0)))

/-- A placement (R159, R167, R169) is dropped and told back where the record has no address or its unit is LOST; else it takes the
slot with the next order number and no attempts, a replaced order of another block's is told to it, and the address joins the
Urgent List at the tail, stays, or leaves it; an IDLE loop begins the turn of the list's head. A withdrawal (R168) empties a
slot that holds its kind. A telling of the island state changes nothing here (R161, log 5). -/
def Obligations.PlacementsAndWithdrawalsChangeOneSlot : Prop :=
  ∀ s : State, s.inReset = false →
    (∀ p : Placement, let c := Instr.orderPlacement p
      (s.addrOf p.target = none ∨ s.contactOf p.target = .lost →
        exec c s = .next ((s.took c).push (.supersessionNotice p.owner p.target p.order .dropped)))
      ∧ (∀ u, s.addrOf p.target = some u → (s.entry u).contact ≠ .lost → ∃ t, exec c s = .next t ∧ s.onlyLoop t
          ∧ let e := s.entry u
            let n := (e.orderNo + 1) % 256
            t.entry u = { e with
                orderNo := n
                slot := some { order := p.order, owner := p.owner, urgent := p.urgent, number := n, attempts := 0 } }
              ∧ (∀ v, v ≠ u → t.entry v = s.entry v) ∧ t.flc.pollList = s.flc.pollList
              ∧ (e.slot = none → t.events = (s.took c).events)
              ∧ (∀ o, e.slot = some o → t.events = (s.took c).events ++
                  (if o.owner = p.owner then [] else [.supersessionNotice o.owner p.target o.order .superseded]))
              ∧ t.flc.urgent = (if p.urgent then (if e.slot.any (·.urgent) then s.flc.urgent else s.flc.urgent ++ [u])
                  else s.flc.urgent.filter fun a => a != u)
              ∧ (s.flc.loop ≠ .idle ∨ p.urgent = false → t.flc.loop = s.flc.loop ∧ t.flc.cursor = s.flc.cursor)
              ∧ (∀ v l, s.flc.loop = .idle → p.urgent = true → t.flc.urgent = v :: l → t.flc.cursor = s.flc.cursor
                  ∧ t.flc.loop = .sending
                    { addr := v, urgent := true, sent := (t.entry v).slot, discard := false, baud := s.setting .baudRate }
                    (turnFrame v (t.entry v).slot))))
      ∧ (∀ w : Withdrawal, let c := Instr.orderWithdrawal w
        ((∀ o, s.slotOf w.target = some o → o.order.kind ≠ w.kind) → exec c s = .next (s.took c))
        ∧ (∀ u o, s.addrOf w.target = some u → (s.entry u).slot = some o → o.order.kind = w.kind →
            ∃ t, exec c s = .next t ∧ s.onlyLoop t
              ∧ t.entry u = { s.entry u with slot := none } ∧ (∀ v, v ≠ u → t.entry v = s.entry v)
              ∧ t.flc = { s.flc with directory := t.flc.directory, urgent := s.flc.urgent.filter fun a => a != u }
              ∧ t.events = (s.took c).events ++
                (if o.owner = w.by_ then [] else [.supersessionNotice o.owner w.target o.order .superseded])))
      ∧ ∀ n, exec (.flcIslandState n) s = .next (s.took (.flcIslandState n))

/-- The loop's states (R163, R164, R165, R169): the gap's end begins an urgent turn to the head of the Urgent List, else a poll
turn to the first entry from the cursor on that is not VACANT, the cursor then at the entry behind it, else the loop is IDLE;
each turn carries its address's slot. The frame's end starts the reply window, a start of character ends the watch on it, and
a window or a reception that ends early is a missed turn, but not where the turn's REPLY is to be discarded: that turn ends
uncounted and its gap follows (R160). In any other loop state each does nothing. That a missed turn finds the sent order still
in the slot, and counts an attempt, is told by the order number alone (R170, log 86). A change into SILENT or LOST is told to the AE
and the SE of a feeder, its loss to the IC as well, to the GS of a genset and to the CU of an array, each telling with the
record and the new state (R172, R174). The missed count of a unit that is LOST already goes on rising, the model's reading of
R172 against the example of 07 section 7.8 (log 76). -/
def Obligations.TurnsAreChosenSentAndMissed : Prop :=
  ∀ s : State, s.inReset = false →
    let at_ (c : Instr) (l : Loop) : State := { s.took c with flc := { s.flc with loop := l } }
    let begun (u : Addr) (urgent : Bool) : Loop := .sending
      { addr := u, urgent := urgent, sent := (s.entry u).slot, discard := false, baud := s.setting .baudRate }
      (turnFrame u (s.entry u).slot)
    let g := Instr.gapExpiry
    let n := s.flc.pollList.length
    (∀ now, (∀ f, contactTellings (.feeder f) now = [.aeContactChange f now, .seContactChange f now]
          ++ (if now = .lost then [.icFeederLost f] else []))
        ∧ (∀ k, contactTellings (.genset k) now = [.gsContactLost k now])
        ∧ ∀ a, contactTellings (.array a) now = [.cuContactLost a now])
      ∧ ((∀ left, s.flc.loop ≠ .gap left) → exec g s = .next (s.took g))
      ∧ (∀ left u l, s.flc.loop = .gap left → s.flc.urgent = u :: l → exec g s = .next (at_ g (begun u true)))
      ∧ (∀ left k u, s.flc.loop = .gap left → s.flc.urgent = [] → s.flc.cursor < n → k < n →
          (∀ j < k, ∀ v, s.flc.pollList[(s.flc.cursor + j) % n]? = some v → (s.entry v).bound = none) →
          s.flc.pollList[(s.flc.cursor + k) % n]? = some u → (s.entry u).bound ≠ none →
          exec g s = .next { at_ g .idle with flc := { s.flc with
            cursor := (s.flc.cursor + k + 1) % n, loop := begun u false } })
      ∧ (∀ left, s.flc.loop = .gap left → s.flc.urgent = [] → s.flc.cursor < n ∨ n = 0 →
          (∀ v ∈ s.flc.pollList, (s.entry v).bound = none) → exec g s = .next (at_ g .idle))
      ∧ (∀ turn frame, s.flc.loop = .sending turn frame →
          exec .frameSent s = .next (at_ .frameSent (.awaiting turn (s.setting .replyWindow))))
      ∧ ((∀ turn frame, s.flc.loop ≠ .sending turn frame) → exec .frameSent s = .next (s.took .frameSent))
      ∧ (∀ turn left, s.flc.loop = .awaiting turn left → exec .replyStart s = .next (at_ .replyStart (.receiving turn)))
      ∧ ((∀ turn left, s.flc.loop ≠ .awaiting turn left) → exec .replyStart s = .next (s.took .replyStart)
          ∧ exec .replyWindowExpiry s = .next (s.took .replyWindowExpiry))
      ∧ ((∀ turn, s.flc.loop ≠ .receiving turn) → exec .receptionTimeout s = .next (s.took .receptionTimeout))
      ∧ ∀ turn r c, (c = .replyWindowExpiry ∧ ∃ left, s.flc.loop = .awaiting turn left)
            ∨ (c = .receptionTimeout ∧ s.flc.loop = .receiving turn) →
          (turn.discard = false → (s.entry turn.addr).bound = some r → ∃ t, exec c s = .next t ∧ s.missedBy turn r t)
          ∧ (turn.discard = true ∨ (s.entry turn.addr).bound = none → exec c s = .next { s.took c with flc := { s.flc with
              loop := .gap (s.setting .interFrameGap)
              urgent :=
                if turn.urgent && (s.entry turn.addr).slot.any (·.urgent)
                then (s.flc.urgent.filter fun a => a != turn.addr) ++ [turn.addr] else s.flc.urgent } })

/-- A REPLY taken in RECEIVING (R160, R166, R170, R171, R175): one that passes every test makes the unit IN CONTACT with no missed
count, empties the slot where it still holds the sent order, and is delivered to its blocks; one that fails a test is a missed
turn; one to be discarded counts as neither. Each starts the gap. The characters pass the frame's tests where they are the address
of the turn, the kind REPLY, the length of a payload, the payload and its CRC-16 (R195), and no other do. A payload passes where
it gives the unit kind of the entry, carries an answer exactly where the turn sent an ORDER, with that order's number, a claim
only from a FEEDER, and has the length that these give; its report, answer and claim are then read. The deliveries name the
contact state before the REPLY and carry the report: a feeder's to the AE, with the claim, and to the SE, the answer with the
block whose order was sent alone; a genset's with its answer to the GS, an array's to the CU (R175). A feeder report gives the
breaker, 00h OPEN and 01h CLOSED, bit 0 of the flags LOCAL, and the draw low byte first; a genset's the seven marks from bit 0 and
the output; an array's the output (09 sections 9.2, 9.3). The model's readings: that the slot still holds the sent order is told
by the order number alone (log 86); a missed turn raises the missed count of a unit that is LOST already (log 76); a claim of an
unknown kind fails the tests, and spare bits of a marks byte are ignored (log 32). -/
def Obligations.RepliesMakeValidOrMissedTurns : Prop :=
  ∀ s : State, s.inReset = false →
    (∀ chars, (∀ turn, s.flc.loop ≠ .receiving turn) →
        exec (.replyReceived chars) s = .next (s.took (.replyReceived chars)))
      ∧ (∀ chars turn, s.flc.loop = .receiving turn →
          let c := Instr.replyReceived chars
          let u := turn.addr
          let e := s.entry u
          let behind (slot : Option SlotOrder) (l : List Addr) : List Addr :=
            if turn.urgent && slot.any (·.urgent) then (l.filter fun a => a != u) ++ [u] else l
          (turn.discard = true ∨ e.bound = none → exec c s = .next
            { s.took c with flc := { s.flc with
                loop := .gap (s.setting .interFrameGap), urgent := behind e.slot s.flc.urgent } })
          ∧ (∀ r, turn.discard = false → e.bound = some r → readReply u r turn.sent chars = none →
              ∃ t, exec c s = .next t ∧ s.missedBy turn r t)
          ∧ (∀ r p, turn.discard = false → e.bound = some r → readReply u r turn.sent chars = some p →
              let answered : Prop := ∃ o w, e.slot = some o ∧ turn.sent = some w ∧ o.number = w.number
              ∃ t, exec c s = .next t ∧ s.onlyLoop t
                ∧ (∀ v, v ≠ u → t.entry v = s.entry v) ∧ t.flc.pollList = s.flc.pollList ∧ t.flc.cursor = s.flc.cursor
                ∧ t.flc.loop = .gap (s.setting .interFrameGap)
                ∧ (answered → t.entry u = { e with contact := .inContact, missed := 0, slot := none }
                    ∧ t.flc.urgent = s.flc.urgent.filter fun a => a != u)
                ∧ (¬ answered → t.entry u = { e with contact := .inContact, missed := 0 }
                    ∧ t.flc.urgent = behind e.slot s.flc.urgent)
                ∧ t.events = (s.took c).events ++ deliveries r e.contact p turn.sent))
      ∧ (∀ was (p : ReplyParts) sent,
          let answer (b : Option Block) : Option Answered := match sent, p.answer with
            | some o, some yes => if b = none ∨ b = some o.owner then some { sent := o, accepted := yes } else none
            | _, _ => none
          (∀ f, let d (b : Block) : FeederDelivery :=
              { feeder := f, was := was, report := feederReport p.report, answer := answer (some b) }
            let ae : Instr := match p.claim with
              | none => .aeReplyDelivery (d .ae)
              | some (.draw c) => .drawRequest (d .ae) c
              | some (.release h) => .release (d .ae) h
            deliveries (.feeder f) was p sent = [ae, .seReplyDelivery (d .se)])
          ∧ (∀ g, deliveries (.genset g) was p sent = [.gsReplyDelivery
            { genset := g, was := was, report := gensetReport p.report, answer := answer none }])
          ∧ ∀ a, deliveries (.array a) was p sent = [.cuReplyDelivery
            { array := a, was := was, output := arrayReport p.report, answer := answer none }])
      ∧ (∀ a b lo hi : Byte, let kw := lo.toNat + 256 * hi.toNat
          (feederReport [a, b, lo, hi]).isLocal = b.getLsbD 0 ∧ (feederReport [a, b, lo, hi]).draw = kw
          ∧ (feederReport [0, b, lo, hi]).closed = false ∧ (feederReport [1, b, lo, hi]).closed = true
          ∧ gensetReport [a, lo, hi] =
            { running := a.getLsbD 0, voltsOk := a.getLsbD 1, warm := a.getLsbD 2, ready := a.getLsbD 3
              synced := a.getLsbD 4, closed := a.getLsbD 5, tripped := a.getLsbD 6, output := kw }
          ∧ arrayReport [lo, hi] = kw)
      ∧ (∀ (u : Addr) r sent p, p.length ≤ 255 → readReply u r sent (loopFrame u 0x73 p) = readPayload r sent p)
      ∧ (∀ (u : Addr) r sent chars, chars ≠ loopFrame u 0x73 ((chars.drop 3).take (chars.length - 5)) →
          readReply u r sent chars = none)
      ∧ (∀ r sent (p : List Byte), let marks := p.getD 1 0
          let answer := 2 + reportLength r
          let claim := answer + if sent = none then 0 else 3
          (p.getD 0 0 ≠ kindCode (some r) → readPayload r sent p = none)
          ∧ (marks.getLsbD 0 ≠ sent.isSome → readPayload r sent p = none)
          ∧ (∀ o, sent = some o → p.getD answer 0 ≠ byteOf o.number → readPayload r sent p = none)
          ∧ (marks.getLsbD 1 = true → (∀ f, r ≠ .feeder f) → readPayload r sent p = none)
          ∧ (p.length < claim → readPayload r sent p = none)
          ∧ (marks.getLsbD 1 = false → p.length ≠ claim → readPayload r sent p = none)
          ∧ (marks.getLsbD 1 = true → ¬ (p.length = claim + 8 ∧ p.getD claim 0 = 1) →
              ¬ (p.length = claim + 3 ∧ p.getD claim 0 = 2) → readPayload r sent p = none))
      ∧ ∀ r (report : List Byte) (marks : Byte), report.length = reportLength r →
          let payload (answer claim : List Byte) : List Byte := kindCode (some r) :: marks :: (report ++ (answer ++ claim))
          let passes (claim : List Byte) (c : Option Claim) : Prop :=
            (marks.getLsbD 0 = false →
              readPayload r none (payload [] claim) = some { report := report, answer := none, claim := c })
            ∧ ∀ o (reason : Byte), marks.getLsbD 0 = true → ∀ yes : Bool,
              readPayload r (some o) (payload [byteOf o.number, if yes then 0 else 1, reason] claim)
                = some { report := report, answer := some yes, claim := c }
          (marks.getLsbD 1 = false → passes [] none)
          ∧ ∀ f, r = .feeder f → marks.getLsbD 1 = true → ∀ a b : Byte,
            passes [2, a, b] (some (.release ⟨a.toNat, b.toNat⟩))
            ∧ ∀ (x y v w : Byte) (may : Bool), passes [1, a, b, x, y, if may then 1 else 0, v, w] (some (.draw
              { handle := if a = 0xFF ∧ b = 0 then none else some ⟨a.toNat, b.toNat⟩
                kw := x.toNat + 256 * y.toNat, mayWait := may, waitLimit := v.toNat + 256 * w.toNat }))
end

