-- ==== Sys2Proof/Laws/State.lean ====
section
/-! SUPPORT. One lemma per field per update of the state, each true by `rfl`, and the reading back of one record after the
write of one. -/

namespace Sys2Proof.Machine

/-! ### State.setPermit -/

@[simp] theorem State.setPermit_pending (s : State) (i : Slot) (p : Permit) : (s.setPermit i p).pending = s.pending := rfl
@[simp] theorem State.setPermit_events (s : State) (i : Slot) (p : Permit) : (s.setPermit i p).events = s.events := rfl
@[simp] theorem State.setPermit_clock (s : State) (i : Slot) (p : Permit) : (s.setPermit i p).clock = s.clock := rfl
@[simp] theorem State.setPermit_inReset (s : State) (i : Slot) (p : Permit) : (s.setPermit i p).inReset = s.inReset := rfl
@[simp] theorem State.setPermit_pins (s : State) (i : Slot) (p : Permit) : (s.setPermit i p).pins = s.pins := rfl
@[simp] theorem State.setPermit_needs (s : State) (i : Slot) (p : Permit) : (s.setPermit i p).needs = s.needs := rfl
@[simp] theorem State.setPermit_ae (s : State) (i : Slot) (p : Permit) : (s.setPermit i p).ae = { s.ae with permits := s.ae.permits.set i p } := rfl
@[simp] theorem State.setPermit_se (s : State) (i : Slot) (p : Permit) : (s.setPermit i p).se = s.se := rfl
@[simp] theorem State.setPermit_gs (s : State) (i : Slot) (p : Permit) : (s.setPermit i p).gs = s.gs := rfl
@[simp] theorem State.setPermit_cu (s : State) (i : Slot) (p : Permit) : (s.setPermit i p).cu = s.cu := rfl
@[simp] theorem State.setPermit_ic (s : State) (i : Slot) (p : Permit) : (s.setPermit i p).ic = s.ic := rfl
@[simp] theorem State.setPermit_flc (s : State) (i : Slot) (p : Permit) : (s.setPermit i p).flc = s.flc := rfl
@[simp] theorem State.setPermit_sp (s : State) (i : Slot) (p : Permit) : (s.setPermit i p).sp = s.sp := rfl

/-! ### State.setFeeder -/

@[simp] theorem State.setFeeder_pending (s : State) (f : FeederNo) (r : Feeder) : (s.setFeeder f r).pending = s.pending := rfl
@[simp] theorem State.setFeeder_events (s : State) (f : FeederNo) (r : Feeder) : (s.setFeeder f r).events = s.events := rfl
@[simp] theorem State.setFeeder_clock (s : State) (f : FeederNo) (r : Feeder) : (s.setFeeder f r).clock = s.clock := rfl
@[simp] theorem State.setFeeder_inReset (s : State) (f : FeederNo) (r : Feeder) : (s.setFeeder f r).inReset = s.inReset := rfl
@[simp] theorem State.setFeeder_pins (s : State) (f : FeederNo) (r : Feeder) : (s.setFeeder f r).pins = s.pins := rfl
@[simp] theorem State.setFeeder_needs (s : State) (f : FeederNo) (r : Feeder) : (s.setFeeder f r).needs = s.needs := rfl
@[simp] theorem State.setFeeder_ae (s : State) (f : FeederNo) (r : Feeder) : (s.setFeeder f r).ae = s.ae := rfl
@[simp] theorem State.setFeeder_se (s : State) (f : FeederNo) (r : Feeder) : (s.setFeeder f r).se = { s.se with feeders := s.se.feeders.set f r } := rfl
@[simp] theorem State.setFeeder_gs (s : State) (f : FeederNo) (r : Feeder) : (s.setFeeder f r).gs = s.gs := rfl
@[simp] theorem State.setFeeder_cu (s : State) (f : FeederNo) (r : Feeder) : (s.setFeeder f r).cu = s.cu := rfl
@[simp] theorem State.setFeeder_ic (s : State) (f : FeederNo) (r : Feeder) : (s.setFeeder f r).ic = s.ic := rfl
@[simp] theorem State.setFeeder_flc (s : State) (f : FeederNo) (r : Feeder) : (s.setFeeder f r).flc = s.flc := rfl
@[simp] theorem State.setFeeder_sp (s : State) (f : FeederNo) (r : Feeder) : (s.setFeeder f r).sp = s.sp := rfl

/-! ### State.setGenset -/

@[simp] theorem State.setGenset_pending (s : State) (g : GensetNo) (r : Genset) : (s.setGenset g r).pending = s.pending := rfl
@[simp] theorem State.setGenset_events (s : State) (g : GensetNo) (r : Genset) : (s.setGenset g r).events = s.events := rfl
@[simp] theorem State.setGenset_clock (s : State) (g : GensetNo) (r : Genset) : (s.setGenset g r).clock = s.clock := rfl
@[simp] theorem State.setGenset_inReset (s : State) (g : GensetNo) (r : Genset) : (s.setGenset g r).inReset = s.inReset := rfl
@[simp] theorem State.setGenset_pins (s : State) (g : GensetNo) (r : Genset) : (s.setGenset g r).pins = s.pins := rfl
@[simp] theorem State.setGenset_needs (s : State) (g : GensetNo) (r : Genset) : (s.setGenset g r).needs = s.needs := rfl
@[simp] theorem State.setGenset_ae (s : State) (g : GensetNo) (r : Genset) : (s.setGenset g r).ae = s.ae := rfl
@[simp] theorem State.setGenset_se (s : State) (g : GensetNo) (r : Genset) : (s.setGenset g r).se = s.se := rfl
@[simp] theorem State.setGenset_gs (s : State) (g : GensetNo) (r : Genset) : (s.setGenset g r).gs = { s.gs with gensets := s.gs.gensets.set g r } := rfl
@[simp] theorem State.setGenset_cu (s : State) (g : GensetNo) (r : Genset) : (s.setGenset g r).cu = s.cu := rfl
@[simp] theorem State.setGenset_ic (s : State) (g : GensetNo) (r : Genset) : (s.setGenset g r).ic = s.ic := rfl
@[simp] theorem State.setGenset_flc (s : State) (g : GensetNo) (r : Genset) : (s.setGenset g r).flc = s.flc := rfl
@[simp] theorem State.setGenset_sp (s : State) (g : GensetNo) (r : Genset) : (s.setGenset g r).sp = s.sp := rfl

/-! ### State.setArray -/

@[simp] theorem State.setArray_pending (s : State) (a : ArrayNo) (r : ArrayRecord) : (s.setArray a r).pending = s.pending := rfl
@[simp] theorem State.setArray_events (s : State) (a : ArrayNo) (r : ArrayRecord) : (s.setArray a r).events = s.events := rfl
@[simp] theorem State.setArray_clock (s : State) (a : ArrayNo) (r : ArrayRecord) : (s.setArray a r).clock = s.clock := rfl
@[simp] theorem State.setArray_inReset (s : State) (a : ArrayNo) (r : ArrayRecord) : (s.setArray a r).inReset = s.inReset := rfl
@[simp] theorem State.setArray_pins (s : State) (a : ArrayNo) (r : ArrayRecord) : (s.setArray a r).pins = s.pins := rfl
@[simp] theorem State.setArray_needs (s : State) (a : ArrayNo) (r : ArrayRecord) : (s.setArray a r).needs = s.needs := rfl
@[simp] theorem State.setArray_ae (s : State) (a : ArrayNo) (r : ArrayRecord) : (s.setArray a r).ae = s.ae := rfl
@[simp] theorem State.setArray_se (s : State) (a : ArrayNo) (r : ArrayRecord) : (s.setArray a r).se = s.se := rfl
@[simp] theorem State.setArray_gs (s : State) (a : ArrayNo) (r : ArrayRecord) : (s.setArray a r).gs = s.gs := rfl
@[simp] theorem State.setArray_cu (s : State) (a : ArrayNo) (r : ArrayRecord) : (s.setArray a r).cu = { s.cu with arrays := s.cu.arrays.set a r } := rfl
@[simp] theorem State.setArray_ic (s : State) (a : ArrayNo) (r : ArrayRecord) : (s.setArray a r).ic = s.ic := rfl
@[simp] theorem State.setArray_flc (s : State) (a : ArrayNo) (r : ArrayRecord) : (s.setArray a r).flc = s.flc := rfl
@[simp] theorem State.setArray_sp (s : State) (a : ArrayNo) (r : ArrayRecord) : (s.setArray a r).sp = s.sp := rfl

/-! ### State.setEntry -/

@[simp] theorem State.setEntry_pending (s : State) (u : Addr) (r : UnitEntry) : (s.setEntry u r).pending = s.pending := rfl
@[simp] theorem State.setEntry_events (s : State) (u : Addr) (r : UnitEntry) : (s.setEntry u r).events = s.events := rfl
@[simp] theorem State.setEntry_clock (s : State) (u : Addr) (r : UnitEntry) : (s.setEntry u r).clock = s.clock := rfl
@[simp] theorem State.setEntry_inReset (s : State) (u : Addr) (r : UnitEntry) : (s.setEntry u r).inReset = s.inReset := rfl
@[simp] theorem State.setEntry_pins (s : State) (u : Addr) (r : UnitEntry) : (s.setEntry u r).pins = s.pins := rfl
@[simp] theorem State.setEntry_needs (s : State) (u : Addr) (r : UnitEntry) : (s.setEntry u r).needs = s.needs := rfl
@[simp] theorem State.setEntry_ae (s : State) (u : Addr) (r : UnitEntry) : (s.setEntry u r).ae = s.ae := rfl
@[simp] theorem State.setEntry_se (s : State) (u : Addr) (r : UnitEntry) : (s.setEntry u r).se = s.se := rfl
@[simp] theorem State.setEntry_gs (s : State) (u : Addr) (r : UnitEntry) : (s.setEntry u r).gs = s.gs := rfl
@[simp] theorem State.setEntry_cu (s : State) (u : Addr) (r : UnitEntry) : (s.setEntry u r).cu = s.cu := rfl
@[simp] theorem State.setEntry_ic (s : State) (u : Addr) (r : UnitEntry) : (s.setEntry u r).ic = s.ic := rfl
@[simp] theorem State.setEntry_flc (s : State) (u : Addr) (r : UnitEntry) : (s.setEntry u r).flc = { s.flc with directory := s.flc.directory.set u r } := rfl
@[simp] theorem State.setEntry_sp (s : State) (u : Addr) (r : UnitEntry) : (s.setEntry u r).sp = s.sp := rfl

/-! ### State.push -/

@[simp] theorem State.push_pending (s : State) (e : Instr) : (s.push e).pending = s.pending := rfl
@[simp] theorem State.push_events (s : State) (e : Instr) : (s.push e).events = s.events ++ [e] := rfl
@[simp] theorem State.push_clock (s : State) (e : Instr) : (s.push e).clock = s.clock := rfl
@[simp] theorem State.push_inReset (s : State) (e : Instr) : (s.push e).inReset = s.inReset := rfl
@[simp] theorem State.push_pins (s : State) (e : Instr) : (s.push e).pins = s.pins := rfl
@[simp] theorem State.push_needs (s : State) (e : Instr) : (s.push e).needs = s.needs := rfl
@[simp] theorem State.push_ae (s : State) (e : Instr) : (s.push e).ae = s.ae := rfl
@[simp] theorem State.push_se (s : State) (e : Instr) : (s.push e).se = s.se := rfl
@[simp] theorem State.push_gs (s : State) (e : Instr) : (s.push e).gs = s.gs := rfl
@[simp] theorem State.push_cu (s : State) (e : Instr) : (s.push e).cu = s.cu := rfl
@[simp] theorem State.push_ic (s : State) (e : Instr) : (s.push e).ic = s.ic := rfl
@[simp] theorem State.push_flc (s : State) (e : Instr) : (s.push e).flc = s.flc := rfl
@[simp] theorem State.push_sp (s : State) (e : Instr) : (s.push e).sp = s.sp := rfl

/-! ### State.pushAll -/

@[simp] theorem State.pushAll_pending (s : State) (es : List Instr) : (s.pushAll es).pending = s.pending := rfl
@[simp] theorem State.pushAll_events (s : State) (es : List Instr) : (s.pushAll es).events = s.events ++ es := rfl
@[simp] theorem State.pushAll_clock (s : State) (es : List Instr) : (s.pushAll es).clock = s.clock := rfl
@[simp] theorem State.pushAll_inReset (s : State) (es : List Instr) : (s.pushAll es).inReset = s.inReset := rfl
@[simp] theorem State.pushAll_pins (s : State) (es : List Instr) : (s.pushAll es).pins = s.pins := rfl
@[simp] theorem State.pushAll_needs (s : State) (es : List Instr) : (s.pushAll es).needs = s.needs := rfl
@[simp] theorem State.pushAll_ae (s : State) (es : List Instr) : (s.pushAll es).ae = s.ae := rfl
@[simp] theorem State.pushAll_se (s : State) (es : List Instr) : (s.pushAll es).se = s.se := rfl
@[simp] theorem State.pushAll_gs (s : State) (es : List Instr) : (s.pushAll es).gs = s.gs := rfl
@[simp] theorem State.pushAll_cu (s : State) (es : List Instr) : (s.pushAll es).cu = s.cu := rfl
@[simp] theorem State.pushAll_ic (s : State) (es : List Instr) : (s.pushAll es).ic = s.ic := rfl
@[simp] theorem State.pushAll_flc (s : State) (es : List Instr) : (s.pushAll es).flc = s.flc := rfl
@[simp] theorem State.pushAll_sp (s : State) (es : List Instr) : (s.pushAll es).sp = s.sp := rfl

/-! ### State.took -/

@[simp] theorem State.took_pending (s : State) (e : Instr) : (s.took e).pending = s.pending := rfl
@[simp] theorem State.took_events (s : State) (e : Instr) : (s.took e).events = s.events.erase e := rfl
@[simp] theorem State.took_clock (s : State) (e : Instr) : (s.took e).clock = s.clock := rfl
@[simp] theorem State.took_inReset (s : State) (e : Instr) : (s.took e).inReset = s.inReset := rfl
@[simp] theorem State.took_pins (s : State) (e : Instr) : (s.took e).pins = s.pins := rfl
@[simp] theorem State.took_needs (s : State) (e : Instr) : (s.took e).needs = s.needs := rfl
@[simp] theorem State.took_ae (s : State) (e : Instr) : (s.took e).ae = s.ae := rfl
@[simp] theorem State.took_se (s : State) (e : Instr) : (s.took e).se = s.se := rfl
@[simp] theorem State.took_gs (s : State) (e : Instr) : (s.took e).gs = s.gs := rfl
@[simp] theorem State.took_cu (s : State) (e : Instr) : (s.took e).cu = s.cu := rfl
@[simp] theorem State.took_ic (s : State) (e : Instr) : (s.took e).ic = s.ic := rfl
@[simp] theorem State.took_flc (s : State) (e : Instr) : (s.took e).flc = s.flc := rfl
@[simp] theorem State.took_sp (s : State) (e : Instr) : (s.took e).sp = s.sp := rfl

/-! ### State.notice -/

@[simp] theorem State.notice_pending (s : State) (n : Notice) : (s.notice n).pending = s.pending := rfl
@[simp] theorem State.notice_events (s : State) (n : Notice) : (s.notice n).events = s.events ++ [.noticeRaise n] := rfl
@[simp] theorem State.notice_clock (s : State) (n : Notice) : (s.notice n).clock = s.clock := rfl
@[simp] theorem State.notice_inReset (s : State) (n : Notice) : (s.notice n).inReset = s.inReset := rfl
@[simp] theorem State.notice_pins (s : State) (n : Notice) : (s.notice n).pins = s.pins := rfl
@[simp] theorem State.notice_needs (s : State) (n : Notice) : (s.notice n).needs = s.needs := rfl
@[simp] theorem State.notice_ae (s : State) (n : Notice) : (s.notice n).ae = s.ae := rfl
@[simp] theorem State.notice_se (s : State) (n : Notice) : (s.notice n).se = s.se := rfl
@[simp] theorem State.notice_gs (s : State) (n : Notice) : (s.notice n).gs = s.gs := rfl
@[simp] theorem State.notice_cu (s : State) (n : Notice) : (s.notice n).cu = s.cu := rfl
@[simp] theorem State.notice_ic (s : State) (n : Notice) : (s.notice n).ic = s.ic := rfl
@[simp] theorem State.notice_flc (s : State) (n : Notice) : (s.notice n).flc = s.flc := rfl
@[simp] theorem State.notice_sp (s : State) (n : Notice) : (s.notice n).sp = s.sp := rfl

/-! ### State.place -/

@[simp] theorem State.place_pending (s : State) (r : UnitRec) (o : Order) (b : Block) (u : Bool) : (s.place r o b u).pending = s.pending := rfl
@[simp] theorem State.place_events (s : State) (r : UnitRec) (o : Order) (b : Block) (u : Bool) : (s.place r o b u).events = s.events ++ [.orderPlacement { target := r, order := o, owner := b, urgent := u }] := rfl
@[simp] theorem State.place_clock (s : State) (r : UnitRec) (o : Order) (b : Block) (u : Bool) : (s.place r o b u).clock = s.clock := rfl
@[simp] theorem State.place_inReset (s : State) (r : UnitRec) (o : Order) (b : Block) (u : Bool) : (s.place r o b u).inReset = s.inReset := rfl
@[simp] theorem State.place_pins (s : State) (r : UnitRec) (o : Order) (b : Block) (u : Bool) : (s.place r o b u).pins = s.pins := rfl
@[simp] theorem State.place_needs (s : State) (r : UnitRec) (o : Order) (b : Block) (u : Bool) : (s.place r o b u).needs = s.needs := rfl
@[simp] theorem State.place_ae (s : State) (r : UnitRec) (o : Order) (b : Block) (u : Bool) : (s.place r o b u).ae = s.ae := rfl
@[simp] theorem State.place_se (s : State) (r : UnitRec) (o : Order) (b : Block) (u : Bool) : (s.place r o b u).se = s.se := rfl
@[simp] theorem State.place_gs (s : State) (r : UnitRec) (o : Order) (b : Block) (u : Bool) : (s.place r o b u).gs = s.gs := rfl
@[simp] theorem State.place_cu (s : State) (r : UnitRec) (o : Order) (b : Block) (u : Bool) : (s.place r o b u).cu = s.cu := rfl
@[simp] theorem State.place_ic (s : State) (r : UnitRec) (o : Order) (b : Block) (u : Bool) : (s.place r o b u).ic = s.ic := rfl
@[simp] theorem State.place_flc (s : State) (r : UnitRec) (o : Order) (b : Block) (u : Bool) : (s.place r o b u).flc = s.flc := rfl
@[simp] theorem State.place_sp (s : State) (r : UnitRec) (o : Order) (b : Block) (u : Bool) : (s.place r o b u).sp = s.sp := rfl

/-! ### State.withdraw -/

@[simp] theorem State.withdraw_pending (s : State) (r : UnitRec) (k : OrderKind) (b : Block) : (s.withdraw r k b).pending = s.pending := rfl
@[simp] theorem State.withdraw_events (s : State) (r : UnitRec) (k : OrderKind) (b : Block) : (s.withdraw r k b).events = s.events ++ [.orderWithdrawal { target := r, kind := k, by_ := b }] := rfl
@[simp] theorem State.withdraw_clock (s : State) (r : UnitRec) (k : OrderKind) (b : Block) : (s.withdraw r k b).clock = s.clock := rfl
@[simp] theorem State.withdraw_inReset (s : State) (r : UnitRec) (k : OrderKind) (b : Block) : (s.withdraw r k b).inReset = s.inReset := rfl
@[simp] theorem State.withdraw_pins (s : State) (r : UnitRec) (k : OrderKind) (b : Block) : (s.withdraw r k b).pins = s.pins := rfl
@[simp] theorem State.withdraw_needs (s : State) (r : UnitRec) (k : OrderKind) (b : Block) : (s.withdraw r k b).needs = s.needs := rfl
@[simp] theorem State.withdraw_ae (s : State) (r : UnitRec) (k : OrderKind) (b : Block) : (s.withdraw r k b).ae = s.ae := rfl
@[simp] theorem State.withdraw_se (s : State) (r : UnitRec) (k : OrderKind) (b : Block) : (s.withdraw r k b).se = s.se := rfl
@[simp] theorem State.withdraw_gs (s : State) (r : UnitRec) (k : OrderKind) (b : Block) : (s.withdraw r k b).gs = s.gs := rfl
@[simp] theorem State.withdraw_cu (s : State) (r : UnitRec) (k : OrderKind) (b : Block) : (s.withdraw r k b).cu = s.cu := rfl
@[simp] theorem State.withdraw_ic (s : State) (r : UnitRec) (k : OrderKind) (b : Block) : (s.withdraw r k b).ic = s.ic := rfl
@[simp] theorem State.withdraw_flc (s : State) (r : UnitRec) (k : OrderKind) (b : Block) : (s.withdraw r k b).flc = s.flc := rfl
@[simp] theorem State.withdraw_sp (s : State) (r : UnitRec) (k : OrderKind) (b : Block) : (s.withdraw r k b).sp = s.sp := rfl

/-! ### State.putSetting -/

@[simp] theorem State.putSetting_pending (s : State) (st : Setting) (v : Nat) : (s.putSetting st v).pending = s.pending := rfl
@[simp] theorem State.putSetting_events (s : State) (st : Setting) (v : Nat) : (s.putSetting st v).events = s.events := rfl
@[simp] theorem State.putSetting_clock (s : State) (st : Setting) (v : Nat) : (s.putSetting st v).clock = s.clock := rfl
@[simp] theorem State.putSetting_inReset (s : State) (st : Setting) (v : Nat) : (s.putSetting st v).inReset = s.inReset := rfl
@[simp] theorem State.putSetting_pins (s : State) (st : Setting) (v : Nat) : (s.putSetting st v).pins = s.pins := rfl
@[simp] theorem State.putSetting_needs (s : State) (st : Setting) (v : Nat) : (s.putSetting st v).needs = s.needs := rfl
@[simp] theorem State.putSetting_ae (s : State) (st : Setting) (v : Nat) : (s.putSetting st v).ae = s.ae := rfl
@[simp] theorem State.putSetting_se (s : State) (st : Setting) (v : Nat) : (s.putSetting st v).se = s.se := rfl
@[simp] theorem State.putSetting_gs (s : State) (st : Setting) (v : Nat) : (s.putSetting st v).gs = s.gs := rfl
@[simp] theorem State.putSetting_cu (s : State) (st : Setting) (v : Nat) : (s.putSetting st v).cu = s.cu := rfl
@[simp] theorem State.putSetting_ic (s : State) (st : Setting) (v : Nat) : (s.putSetting st v).ic = s.ic := rfl
@[simp] theorem State.putSetting_flc (s : State) (st : Setting) (v : Nat) : (s.putSetting st v).flc = s.flc := rfl
@[simp] theorem State.putSetting_sp (s : State) (st : Setting) (v : Nat) : (s.putSetting st v).sp = { s.sp with settings := s.sp.settings.set st.index v } := rfl

/-! ### State.hold -/

@[simp] theorem State.hold_pending (s : State) (r : Reply) : (s.hold r).pending = s.pending := rfl
@[simp] theorem State.hold_events (s : State) (r : Reply) : (s.hold r).events = s.events := rfl
@[simp] theorem State.hold_clock (s : State) (r : Reply) : (s.hold r).clock = s.clock := rfl
@[simp] theorem State.hold_inReset (s : State) (r : Reply) : (s.hold r).inReset = s.inReset := rfl
@[simp] theorem State.hold_pins (s : State) (r : Reply) : (s.hold r).pins = s.pins := rfl
@[simp] theorem State.hold_needs (s : State) (r : Reply) : (s.hold r).needs = s.needs := rfl
@[simp] theorem State.hold_ae (s : State) (r : Reply) : (s.hold r).ae = s.ae := rfl
@[simp] theorem State.hold_se (s : State) (r : Reply) : (s.hold r).se = s.se := rfl
@[simp] theorem State.hold_gs (s : State) (r : Reply) : (s.hold r).gs = s.gs := rfl
@[simp] theorem State.hold_cu (s : State) (r : Reply) : (s.hold r).cu = s.cu := rfl
@[simp] theorem State.hold_ic (s : State) (r : Reply) : (s.hold r).ic = s.ic := rfl
@[simp] theorem State.hold_flc (s : State) (r : Reply) : (s.hold r).flc = s.flc := rfl
@[simp] theorem State.hold_sp (s : State) (r : Reply) : (s.hold r).sp = { s.sp with held := r, executing := none } := rfl

/-! ### State.toLoop -/

@[simp] theorem State.toLoop_pending (s : State) (l : Loop) : (s.toLoop l).pending = s.pending := rfl
@[simp] theorem State.toLoop_events (s : State) (l : Loop) : (s.toLoop l).events = s.events := rfl
@[simp] theorem State.toLoop_clock (s : State) (l : Loop) : (s.toLoop l).clock = s.clock := rfl
@[simp] theorem State.toLoop_inReset (s : State) (l : Loop) : (s.toLoop l).inReset = s.inReset := rfl
@[simp] theorem State.toLoop_pins (s : State) (l : Loop) : (s.toLoop l).pins = s.pins := rfl
@[simp] theorem State.toLoop_needs (s : State) (l : Loop) : (s.toLoop l).needs = s.needs := rfl
@[simp] theorem State.toLoop_ae (s : State) (l : Loop) : (s.toLoop l).ae = s.ae := rfl
@[simp] theorem State.toLoop_se (s : State) (l : Loop) : (s.toLoop l).se = s.se := rfl
@[simp] theorem State.toLoop_gs (s : State) (l : Loop) : (s.toLoop l).gs = s.gs := rfl
@[simp] theorem State.toLoop_cu (s : State) (l : Loop) : (s.toLoop l).cu = s.cu := rfl
@[simp] theorem State.toLoop_ic (s : State) (l : Loop) : (s.toLoop l).ic = s.ic := rfl
@[simp] theorem State.toLoop_flc (s : State) (l : Loop) : (s.toLoop l).flc = { s.flc with loop := l } := rfl
@[simp] theorem State.toLoop_sp (s : State) (l : Loop) : (s.toLoop l).sp = s.sp := rfl

/-! ### State.setUrgent -/

@[simp] theorem State.setUrgent_pending (s : State) (l : List Addr) : (s.setUrgent l).pending = s.pending := rfl
@[simp] theorem State.setUrgent_events (s : State) (l : List Addr) : (s.setUrgent l).events = s.events := rfl
@[simp] theorem State.setUrgent_clock (s : State) (l : List Addr) : (s.setUrgent l).clock = s.clock := rfl
@[simp] theorem State.setUrgent_inReset (s : State) (l : List Addr) : (s.setUrgent l).inReset = s.inReset := rfl
@[simp] theorem State.setUrgent_pins (s : State) (l : List Addr) : (s.setUrgent l).pins = s.pins := rfl
@[simp] theorem State.setUrgent_needs (s : State) (l : List Addr) : (s.setUrgent l).needs = s.needs := rfl
@[simp] theorem State.setUrgent_ae (s : State) (l : List Addr) : (s.setUrgent l).ae = s.ae := rfl
@[simp] theorem State.setUrgent_se (s : State) (l : List Addr) : (s.setUrgent l).se = s.se := rfl
@[simp] theorem State.setUrgent_gs (s : State) (l : List Addr) : (s.setUrgent l).gs = s.gs := rfl
@[simp] theorem State.setUrgent_cu (s : State) (l : List Addr) : (s.setUrgent l).cu = s.cu := rfl
@[simp] theorem State.setUrgent_ic (s : State) (l : List Addr) : (s.setUrgent l).ic = s.ic := rfl
@[simp] theorem State.setUrgent_flc (s : State) (l : List Addr) : (s.setUrgent l).flc = { s.flc with urgent := l } := rfl
@[simp] theorem State.setUrgent_sp (s : State) (l : List Addr) : (s.setUrgent l).sp = s.sp := rfl

/-! ### State.endFlight -/

@[simp] theorem State.endFlight_pending (s : State) : s.endFlight.pending = s.pending := rfl
@[simp] theorem State.endFlight_events (s : State) : s.endFlight.events = s.events := rfl
@[simp] theorem State.endFlight_clock (s : State) : s.endFlight.clock = s.clock := rfl
@[simp] theorem State.endFlight_inReset (s : State) : s.endFlight.inReset = s.inReset := rfl
@[simp] theorem State.endFlight_pins (s : State) : s.endFlight.pins = s.pins := rfl
@[simp] theorem State.endFlight_needs (s : State) : s.endFlight.needs = s.needs := rfl
@[simp] theorem State.endFlight_ae (s : State) : s.endFlight.ae = { s.ae with inFlight := none } := rfl
@[simp] theorem State.endFlight_se (s : State) : s.endFlight.se = s.se := rfl
@[simp] theorem State.endFlight_gs (s : State) : s.endFlight.gs = s.gs := rfl
@[simp] theorem State.endFlight_cu (s : State) : s.endFlight.cu = s.cu := rfl
@[simp] theorem State.endFlight_ic (s : State) : s.endFlight.ic = s.ic := rfl
@[simp] theorem State.endFlight_flc (s : State) : s.endFlight.flc = s.flc := rfl
@[simp] theorem State.endFlight_sp (s : State) : s.endFlight.sp = s.sp := rfl

/-! ### State.startGuard -/

@[simp] theorem State.startGuard_pending (s : State) : s.startGuard.pending = s.pending := rfl
@[simp] theorem State.startGuard_events (s : State) : s.startGuard.events = s.events := rfl
@[simp] theorem State.startGuard_clock (s : State) : s.startGuard.clock = s.clock := rfl
@[simp] theorem State.startGuard_inReset (s : State) : s.startGuard.inReset = s.inReset := rfl
@[simp] theorem State.startGuard_pins (s : State) : s.startGuard.pins = s.pins := rfl
@[simp] theorem State.startGuard_needs (s : State) : s.startGuard.needs = s.needs := rfl
@[simp] theorem State.startGuard_ae (s : State) : s.startGuard.ae = { s.ae with stepGuard := some (tenths (s.setting .stepGuard)) } := rfl
@[simp] theorem State.startGuard_se (s : State) : s.startGuard.se = s.se := rfl
@[simp] theorem State.startGuard_gs (s : State) : s.startGuard.gs = s.gs := rfl
@[simp] theorem State.startGuard_cu (s : State) : s.startGuard.cu = s.cu := rfl
@[simp] theorem State.startGuard_ic (s : State) : s.startGuard.ic = s.ic := rfl
@[simp] theorem State.startGuard_flc (s : State) : s.startGuard.flc = s.flc := rfl
@[simp] theorem State.startGuard_sp (s : State) : s.startGuard.sp = s.sp := rfl

/-! ### State.arrive -/

@[simp] theorem State.arrive_pending (s : State) : s.arrive.pending = s.pending := rfl
@[simp] theorem State.arrive_events (s : State) : s.arrive.events = s.events := rfl
@[simp] theorem State.arrive_clock (s : State) : s.arrive.clock = s.clock := rfl
@[simp] theorem State.arrive_inReset (s : State) : s.arrive.inReset = s.inReset := rfl
@[simp] theorem State.arrive_pins (s : State) : s.arrive.pins = s.pins := rfl
@[simp] theorem State.arrive_needs (s : State) : s.arrive.needs = s.needs := rfl
@[simp] theorem State.arrive_ae (s : State) : s.arrive.ae = { s.ae with arrivals := min (s.ae.arrivals + 1) 0xFFFFFFFF } := rfl
@[simp] theorem State.arrive_se (s : State) : s.arrive.se = s.se := rfl
@[simp] theorem State.arrive_gs (s : State) : s.arrive.gs = s.gs := rfl
@[simp] theorem State.arrive_cu (s : State) : s.arrive.cu = s.cu := rfl
@[simp] theorem State.arrive_ic (s : State) : s.arrive.ic = s.ic := rfl
@[simp] theorem State.arrive_flc (s : State) : s.arrive.flc = s.flc := rfl
@[simp] theorem State.arrive_sp (s : State) : s.arrive.sp = s.sp := rfl

/-! ### State.dropStop -/

@[simp] theorem State.dropStop_pending (s : State) : s.dropStop.pending = s.pending := rfl
@[simp] theorem State.dropStop_events (s : State) : s.dropStop.events = s.events := rfl
@[simp] theorem State.dropStop_clock (s : State) : s.dropStop.clock = s.clock := rfl
@[simp] theorem State.dropStop_inReset (s : State) : s.dropStop.inReset = s.inReset := rfl
@[simp] theorem State.dropStop_pins (s : State) : s.dropStop.pins = s.pins := rfl
@[simp] theorem State.dropStop_needs (s : State) : s.dropStop.needs = s.needs := rfl
@[simp] theorem State.dropStop_ae (s : State) : s.dropStop.ae = s.ae := rfl
@[simp] theorem State.dropStop_se (s : State) : s.dropStop.se = s.se := rfl
@[simp] theorem State.dropStop_gs (s : State) : s.dropStop.gs = { s.gs with stopDelay := none, stopCandidate := none } := rfl
@[simp] theorem State.dropStop_cu (s : State) : s.dropStop.cu = s.cu := rfl
@[simp] theorem State.dropStop_ic (s : State) : s.dropStop.ic = s.ic := rfl
@[simp] theorem State.dropStop_flc (s : State) : s.dropStop.flc = s.flc := rfl
@[simp] theorem State.dropStop_sp (s : State) : s.dropStop.sp = s.sp := rfl

/-! ### State.unqueue -/

@[simp] theorem State.unqueue_pending (s : State) (g : GensetNo) : (s.unqueue g).pending = s.pending := rfl
@[simp] theorem State.unqueue_events (s : State) (g : GensetNo) : (s.unqueue g).events = s.events := rfl
@[simp] theorem State.unqueue_clock (s : State) (g : GensetNo) : (s.unqueue g).clock = s.clock := rfl
@[simp] theorem State.unqueue_inReset (s : State) (g : GensetNo) : (s.unqueue g).inReset = s.inReset := rfl
@[simp] theorem State.unqueue_pins (s : State) (g : GensetNo) : (s.unqueue g).pins = s.pins := rfl
@[simp] theorem State.unqueue_needs (s : State) (g : GensetNo) : (s.unqueue g).needs = s.needs := rfl
@[simp] theorem State.unqueue_ae (s : State) (g : GensetNo) : (s.unqueue g).ae = s.ae := rfl
@[simp] theorem State.unqueue_se (s : State) (g : GensetNo) : (s.unqueue g).se = s.se := rfl
@[simp] theorem State.unqueue_gs (s : State) (g : GensetNo) : (s.unqueue g).gs = { s.gs with queue := s.gs.queue.filter fun e => e.genset != g } := rfl
@[simp] theorem State.unqueue_cu (s : State) (g : GensetNo) : (s.unqueue g).cu = s.cu := rfl
@[simp] theorem State.unqueue_ic (s : State) (g : GensetNo) : (s.unqueue g).ic = s.ic := rfl
@[simp] theorem State.unqueue_flc (s : State) (g : GensetNo) : (s.unqueue g).flc = s.flc := rfl
@[simp] theorem State.unqueue_sp (s : State) (g : GensetNo) : (s.unqueue g).sp = s.sp := rfl

/-! ### State.setReleaseDelay -/

@[simp] theorem State.setReleaseDelay_pending (s : State) (t : Timer) : (s.setReleaseDelay t).pending = s.pending := rfl
@[simp] theorem State.setReleaseDelay_events (s : State) (t : Timer) : (s.setReleaseDelay t).events = s.events := rfl
@[simp] theorem State.setReleaseDelay_clock (s : State) (t : Timer) : (s.setReleaseDelay t).clock = s.clock := rfl
@[simp] theorem State.setReleaseDelay_inReset (s : State) (t : Timer) : (s.setReleaseDelay t).inReset = s.inReset := rfl
@[simp] theorem State.setReleaseDelay_pins (s : State) (t : Timer) : (s.setReleaseDelay t).pins = s.pins := rfl
@[simp] theorem State.setReleaseDelay_needs (s : State) (t : Timer) : (s.setReleaseDelay t).needs = s.needs := rfl
@[simp] theorem State.setReleaseDelay_ae (s : State) (t : Timer) : (s.setReleaseDelay t).ae = s.ae := rfl
@[simp] theorem State.setReleaseDelay_se (s : State) (t : Timer) : (s.setReleaseDelay t).se = s.se := rfl
@[simp] theorem State.setReleaseDelay_gs (s : State) (t : Timer) : (s.setReleaseDelay t).gs = s.gs := rfl
@[simp] theorem State.setReleaseDelay_cu (s : State) (t : Timer) : (s.setReleaseDelay t).cu = { s.cu with releaseDelay := t } := rfl
@[simp] theorem State.setReleaseDelay_ic (s : State) (t : Timer) : (s.setReleaseDelay t).ic = s.ic := rfl
@[simp] theorem State.setReleaseDelay_flc (s : State) (t : Timer) : (s.setReleaseDelay t).flc = s.flc := rfl
@[simp] theorem State.setReleaseDelay_sp (s : State) (t : Timer) : (s.setReleaseDelay t).sp = s.sp := rfl

/-! ### State.toPhase -/

@[simp] theorem State.toPhase_pending (s : State) (p : WalkPhase) : (s.toPhase p).pending = s.pending := rfl
@[simp] theorem State.toPhase_events (s : State) (p : WalkPhase) : (s.toPhase p).events = s.events := rfl
@[simp] theorem State.toPhase_clock (s : State) (p : WalkPhase) : (s.toPhase p).clock = s.clock := rfl
@[simp] theorem State.toPhase_inReset (s : State) (p : WalkPhase) : (s.toPhase p).inReset = s.inReset := rfl
@[simp] theorem State.toPhase_pins (s : State) (p : WalkPhase) : (s.toPhase p).pins = s.pins := rfl
@[simp] theorem State.toPhase_needs (s : State) (p : WalkPhase) : (s.toPhase p).needs = s.needs := rfl
@[simp] theorem State.toPhase_ae (s : State) (p : WalkPhase) : (s.toPhase p).ae = s.ae := rfl
@[simp] theorem State.toPhase_se (s : State) (p : WalkPhase) : (s.toPhase p).se = s.se := rfl
@[simp] theorem State.toPhase_gs (s : State) (p : WalkPhase) : (s.toPhase p).gs = s.gs := rfl
@[simp] theorem State.toPhase_cu (s : State) (p : WalkPhase) : (s.toPhase p).cu = s.cu := rfl
@[simp] theorem State.toPhase_ic (s : State) (p : WalkPhase) : (s.toPhase p).ic = { s.ic with walkPhase := some p } := rfl
@[simp] theorem State.toPhase_flc (s : State) (p : WalkPhase) : (s.toPhase p).flc = s.flc := rfl
@[simp] theorem State.toPhase_sp (s : State) (p : WalkPhase) : (s.toPhase p).sp = s.sp := rfl

/-! ### State.setWalkPermit -/

@[simp] theorem State.setWalkPermit_pending (s : State) (h : Option Handle) : (s.setWalkPermit h).pending = s.pending := rfl
@[simp] theorem State.setWalkPermit_events (s : State) (h : Option Handle) : (s.setWalkPermit h).events = s.events := rfl
@[simp] theorem State.setWalkPermit_clock (s : State) (h : Option Handle) : (s.setWalkPermit h).clock = s.clock := rfl
@[simp] theorem State.setWalkPermit_inReset (s : State) (h : Option Handle) : (s.setWalkPermit h).inReset = s.inReset := rfl
@[simp] theorem State.setWalkPermit_pins (s : State) (h : Option Handle) : (s.setWalkPermit h).pins = s.pins := rfl
@[simp] theorem State.setWalkPermit_needs (s : State) (h : Option Handle) : (s.setWalkPermit h).needs = s.needs := rfl
@[simp] theorem State.setWalkPermit_ae (s : State) (h : Option Handle) : (s.setWalkPermit h).ae = s.ae := rfl
@[simp] theorem State.setWalkPermit_se (s : State) (h : Option Handle) : (s.setWalkPermit h).se = s.se := rfl
@[simp] theorem State.setWalkPermit_gs (s : State) (h : Option Handle) : (s.setWalkPermit h).gs = s.gs := rfl
@[simp] theorem State.setWalkPermit_cu (s : State) (h : Option Handle) : (s.setWalkPermit h).cu = s.cu := rfl
@[simp] theorem State.setWalkPermit_ic (s : State) (h : Option Handle) : (s.setWalkPermit h).ic = { s.ic with walkPermit := h } := rfl
@[simp] theorem State.setWalkPermit_flc (s : State) (h : Option Handle) : (s.setWalkPermit h).flc = s.flc := rfl
@[simp] theorem State.setWalkPermit_sp (s : State) (h : Option Handle) : (s.setWalkPermit h).sp = s.sp := rfl

/-! ### State.raiseFlag -/

@[simp] theorem State.raiseFlag_pending (s : State) (n : Notice) : (s.raiseFlag n).pending = s.pending := rfl
@[simp] theorem State.raiseFlag_events (s : State) (n : Notice) : (s.raiseFlag n).events = s.events := rfl
@[simp] theorem State.raiseFlag_clock (s : State) (n : Notice) : (s.raiseFlag n).clock = s.clock := rfl
@[simp] theorem State.raiseFlag_inReset (s : State) (n : Notice) : (s.raiseFlag n).inReset = s.inReset := rfl
@[simp] theorem State.raiseFlag_pins (s : State) (n : Notice) : (s.raiseFlag n).pins = s.pins := rfl
@[simp] theorem State.raiseFlag_needs (s : State) (n : Notice) : (s.raiseFlag n).needs = s.needs := rfl
@[simp] theorem State.raiseFlag_ae (s : State) (n : Notice) : (s.raiseFlag n).ae = s.ae := rfl
@[simp] theorem State.raiseFlag_se (s : State) (n : Notice) : (s.raiseFlag n).se = s.se := rfl
@[simp] theorem State.raiseFlag_gs (s : State) (n : Notice) : (s.raiseFlag n).gs = s.gs := rfl
@[simp] theorem State.raiseFlag_cu (s : State) (n : Notice) : (s.raiseFlag n).cu = s.cu := rfl
@[simp] theorem State.raiseFlag_ic (s : State) (n : Notice) : (s.raiseFlag n).ic = s.ic := rfl
@[simp] theorem State.raiseFlag_flc (s : State) (n : Notice) : (s.raiseFlag n).flc = s.flc := rfl
@[simp] theorem State.raiseFlag_sp (s : State) (n : Notice) : (s.raiseFlag n).sp = { s.sp with notices := s.sp.notices.set (noticeBit n) true } := rfl

/-! ### State.clearFlags -/

@[simp] theorem State.clearFlags_pending (s : State) : s.clearFlags.pending = s.pending := rfl
@[simp] theorem State.clearFlags_events (s : State) : s.clearFlags.events = s.events := rfl
@[simp] theorem State.clearFlags_clock (s : State) : s.clearFlags.clock = s.clock := rfl
@[simp] theorem State.clearFlags_inReset (s : State) : s.clearFlags.inReset = s.inReset := rfl
@[simp] theorem State.clearFlags_pins (s : State) : s.clearFlags.pins = s.pins := rfl
@[simp] theorem State.clearFlags_needs (s : State) : s.clearFlags.needs = s.needs := rfl
@[simp] theorem State.clearFlags_ae (s : State) : s.clearFlags.ae = s.ae := rfl
@[simp] theorem State.clearFlags_se (s : State) : s.clearFlags.se = s.se := rfl
@[simp] theorem State.clearFlags_gs (s : State) : s.clearFlags.gs = s.gs := rfl
@[simp] theorem State.clearFlags_cu (s : State) : s.clearFlags.cu = s.cu := rfl
@[simp] theorem State.clearFlags_ic (s : State) : s.clearFlags.ic = s.ic := rfl
@[simp] theorem State.clearFlags_flc (s : State) : s.clearFlags.flc = s.flc := rfl
@[simp] theorem State.clearFlags_sp (s : State) : s.clearFlags.sp = { s.sp with notices := Vector.replicate 15 false } := rfl

/-! ### A lane's run -/

@[simp] theorem State.setRun_pending (s : State) (l : LaneId) (r : Option Run) : (s.setRun l r).pending = s.pending := by
  cases l <;> rfl
@[simp] theorem State.setRun_events (s : State) (l : LaneId) (r : Option Run) : (s.setRun l r).events = s.events := by
  cases l <;> rfl
@[simp] theorem State.setRun_clock (s : State) (l : LaneId) (r : Option Run) : (s.setRun l r).clock = s.clock := by
  cases l <;> rfl
@[simp] theorem State.setRun_inReset (s : State) (l : LaneId) (r : Option Run) : (s.setRun l r).inReset = s.inReset := by
  cases l <;> rfl
@[simp] theorem State.setRun_pins (s : State) (l : LaneId) (r : Option Run) : (s.setRun l r).pins = s.pins := by
  cases l <;> rfl
@[simp] theorem State.setRun_needs (s : State) (l : LaneId) (r : Option Run) : (s.setRun l r).needs = s.needs := by
  cases l <;> rfl
@[simp] theorem State.setRun_ae (s : State) (l : LaneId) (r : Option Run) : (s.setRun l r).ae = s.ae := by
  cases l <;> rfl
@[simp] theorem State.setRun_se (s : State) (l : LaneId) (r : Option Run) : (s.setRun l r).se = s.se := by
  cases l <;> rfl
@[simp] theorem State.setRun_cu (s : State) (l : LaneId) (r : Option Run) : (s.setRun l r).cu = s.cu := by
  cases l <;> rfl
@[simp] theorem State.setRun_ic (s : State) (l : LaneId) (r : Option Run) : (s.setRun l r).ic = s.ic := by
  cases l <;> rfl
@[simp] theorem State.setRun_flc (s : State) (l : LaneId) (r : Option Run) : (s.setRun l r).flc = s.flc := by
  cases l <;> rfl
@[simp] theorem State.setRun_sp (s : State) (l : LaneId) (r : Option Run) : (s.setRun l r).sp = s.sp := by
  cases l <;> rfl

/-! ### Records read back -/

theorem State.permit_setPermit (s : State) (i j : Slot) (r : Permit) :
    (s.setPermit i r).permit j = if i = j then r else s.permit j := by
  simp only [State.permit, State.setPermit]
  by_cases h : i = j
  · subst h; simp
  · simp [h, Fin.val_inj]

@[simp] theorem State.permit_setPermit_same (s : State) (i : Slot) (r : Permit) : (s.setPermit i r).permit i = r := by
  simp [State.permit_setPermit]

theorem State.permit_setPermit_ne (s : State) {i j : Slot} (r : Permit) (h : i ≠ j) :
    (s.setPermit i r).permit j = s.permit j := by
  simp [State.permit_setPermit, h]

theorem State.feeder_setFeeder (s : State) (i j : FeederNo) (r : Feeder) :
    (s.setFeeder i r).feeder j = if i = j then r else s.feeder j := by
  simp only [State.feeder, State.setFeeder]
  by_cases h : i = j
  · subst h; simp
  · simp [h, Fin.val_inj]

@[simp] theorem State.feeder_setFeeder_same (s : State) (i : FeederNo) (r : Feeder) : (s.setFeeder i r).feeder i = r := by
  simp [State.feeder_setFeeder]

theorem State.feeder_setFeeder_ne (s : State) {i j : FeederNo} (r : Feeder) (h : i ≠ j) :
    (s.setFeeder i r).feeder j = s.feeder j := by
  simp [State.feeder_setFeeder, h]

theorem State.genset_setGenset (s : State) (i j : GensetNo) (r : Genset) :
    (s.setGenset i r).genset j = if i = j then r else s.genset j := by
  simp only [State.genset, State.setGenset]
  by_cases h : i = j
  · subst h; simp
  · simp [h, Fin.val_inj]

@[simp] theorem State.genset_setGenset_same (s : State) (i : GensetNo) (r : Genset) : (s.setGenset i r).genset i = r := by
  simp [State.genset_setGenset]

theorem State.genset_setGenset_ne (s : State) {i j : GensetNo} (r : Genset) (h : i ≠ j) :
    (s.setGenset i r).genset j = s.genset j := by
  simp [State.genset_setGenset, h]

theorem State.array_setArray (s : State) (i j : ArrayNo) (r : ArrayRecord) :
    (s.setArray i r).array j = if i = j then r else s.array j := by
  simp only [State.array, State.setArray]
  by_cases h : i = j
  · subst h; simp
  · simp [h, Fin.val_inj]

@[simp] theorem State.array_setArray_same (s : State) (i : ArrayNo) (r : ArrayRecord) : (s.setArray i r).array i = r := by
  simp [State.array_setArray]

theorem State.array_setArray_ne (s : State) {i j : ArrayNo} (r : ArrayRecord) (h : i ≠ j) :
    (s.setArray i r).array j = s.array j := by
  simp [State.array_setArray, h]

theorem State.entry_setEntry (s : State) (i j : Addr) (r : UnitEntry) :
    (s.setEntry i r).entry j = if i = j then r else s.entry j := by
  simp only [State.entry, State.setEntry]
  by_cases h : i = j
  · subst h; simp
  · simp [h, Fin.val_inj]

@[simp] theorem State.entry_setEntry_same (s : State) (i : Addr) (r : UnitEntry) : (s.setEntry i r).entry i = r := by
  simp [State.entry_setEntry]

theorem State.entry_setEntry_ne (s : State) {i j : Addr} (r : UnitEntry) (h : i ≠ j) :
    (s.setEntry i r).entry j = s.entry j := by
  simp [State.entry_setEntry, h]


/-! ### What leaves every permit as it was -/

@[simp] theorem State.permit_setFeeder (s : State) (f : FeederNo) (r : Feeder) (m : Slot) : (s.setFeeder f r).permit m = s.permit m := rfl
@[simp] theorem State.permit_setGenset (s : State) (g : GensetNo) (r : Genset) (m : Slot) : (s.setGenset g r).permit m = s.permit m := rfl
@[simp] theorem State.permit_setArray (s : State) (a : ArrayNo) (r : ArrayRecord) (m : Slot) : (s.setArray a r).permit m = s.permit m := rfl
@[simp] theorem State.permit_setEntry (s : State) (u : Addr) (r : UnitEntry) (m : Slot) : (s.setEntry u r).permit m = s.permit m := rfl
@[simp] theorem State.permit_push (s : State) (e : Instr) (m : Slot) : (s.push e).permit m = s.permit m := rfl
@[simp] theorem State.permit_pushAll (s : State) (es : List Instr) (m : Slot) : (s.pushAll es).permit m = s.permit m := rfl
@[simp] theorem State.permit_took (s : State) (e : Instr) (m : Slot) : (s.took e).permit m = s.permit m := rfl
@[simp] theorem State.permit_notice (s : State) (n : Notice) (m : Slot) : (s.notice n).permit m = s.permit m := rfl
@[simp] theorem State.permit_place (s : State) (r : UnitRec) (o : Order) (b : Block) (u : Bool) (m : Slot) : (s.place r o b u).permit m = s.permit m := rfl
@[simp] theorem State.permit_withdraw (s : State) (r : UnitRec) (k : OrderKind) (b : Block) (m : Slot) : (s.withdraw r k b).permit m = s.permit m := rfl
@[simp] theorem State.permit_putSetting (s : State) (st : Setting) (v : Nat) (m : Slot) : (s.putSetting st v).permit m = s.permit m := rfl
@[simp] theorem State.permit_hold (s : State) (r : Reply) (m : Slot) : (s.hold r).permit m = s.permit m := rfl
@[simp] theorem State.permit_toLoop (s : State) (l : Loop) (m : Slot) : (s.toLoop l).permit m = s.permit m := rfl
@[simp] theorem State.permit_setUrgent (s : State) (l : List Addr) (m : Slot) : (s.setUrgent l).permit m = s.permit m := rfl
@[simp] theorem State.permit_endFlight (s : State) (m : Slot) : s.endFlight.permit m = s.permit m := rfl
@[simp] theorem State.permit_startGuard (s : State) (m : Slot) : s.startGuard.permit m = s.permit m := rfl
@[simp] theorem State.permit_arrive (s : State) (m : Slot) : s.arrive.permit m = s.permit m := rfl
@[simp] theorem State.permit_dropStop (s : State) (m : Slot) : s.dropStop.permit m = s.permit m := rfl
@[simp] theorem State.permit_unqueue (s : State) (g : GensetNo) (m : Slot) : (s.unqueue g).permit m = s.permit m := rfl
@[simp] theorem State.permit_setReleaseDelay (s : State) (t : Timer) (m : Slot) : (s.setReleaseDelay t).permit m = s.permit m := rfl
@[simp] theorem State.permit_toPhase (s : State) (p : WalkPhase) (m : Slot) : (s.toPhase p).permit m = s.permit m := rfl
@[simp] theorem State.permit_setWalkPermit (s : State) (h : Option Handle) (m : Slot) : (s.setWalkPermit h).permit m = s.permit m := rfl
@[simp] theorem State.permit_raiseFlag (s : State) (n : Notice) (m : Slot) : (s.raiseFlag n).permit m = s.permit m := rfl
@[simp] theorem State.permit_clearFlags (s : State) (m : Slot) : s.clearFlags.permit m = s.permit m := rfl
@[simp] theorem State.permit_setRun (s : State) (l : LaneId) (r : Option Run) (k : Slot) :
    (s.setRun l r).permit k = s.permit k := by
  cases l <;> rfl

/-! ### What leaves every feeder as it was -/

@[simp] theorem State.feeder_setPermit (s : State) (i' : Slot) (p : Permit) (m : FeederNo) : (s.setPermit i' p).feeder m = s.feeder m := rfl
@[simp] theorem State.feeder_setGenset (s : State) (g : GensetNo) (r : Genset) (m : FeederNo) : (s.setGenset g r).feeder m = s.feeder m := rfl
@[simp] theorem State.feeder_setArray (s : State) (a : ArrayNo) (r : ArrayRecord) (m : FeederNo) : (s.setArray a r).feeder m = s.feeder m := rfl
@[simp] theorem State.feeder_setEntry (s : State) (u : Addr) (r : UnitEntry) (m : FeederNo) : (s.setEntry u r).feeder m = s.feeder m := rfl
@[simp] theorem State.feeder_push (s : State) (e : Instr) (m : FeederNo) : (s.push e).feeder m = s.feeder m := rfl
@[simp] theorem State.feeder_pushAll (s : State) (es : List Instr) (m : FeederNo) : (s.pushAll es).feeder m = s.feeder m := rfl
@[simp] theorem State.feeder_took (s : State) (e : Instr) (m : FeederNo) : (s.took e).feeder m = s.feeder m := rfl
@[simp] theorem State.feeder_notice (s : State) (n : Notice) (m : FeederNo) : (s.notice n).feeder m = s.feeder m := rfl
@[simp] theorem State.feeder_place (s : State) (r : UnitRec) (o : Order) (b : Block) (u : Bool) (m : FeederNo) : (s.place r o b u).feeder m = s.feeder m := rfl
@[simp] theorem State.feeder_withdraw (s : State) (r : UnitRec) (k : OrderKind) (b : Block) (m : FeederNo) : (s.withdraw r k b).feeder m = s.feeder m := rfl
@[simp] theorem State.feeder_putSetting (s : State) (st : Setting) (v : Nat) (m : FeederNo) : (s.putSetting st v).feeder m = s.feeder m := rfl
@[simp] theorem State.feeder_hold (s : State) (r : Reply) (m : FeederNo) : (s.hold r).feeder m = s.feeder m := rfl
@[simp] theorem State.feeder_toLoop (s : State) (l : Loop) (m : FeederNo) : (s.toLoop l).feeder m = s.feeder m := rfl
@[simp] theorem State.feeder_setUrgent (s : State) (l : List Addr) (m : FeederNo) : (s.setUrgent l).feeder m = s.feeder m := rfl
@[simp] theorem State.feeder_endFlight (s : State) (m : FeederNo) : s.endFlight.feeder m = s.feeder m := rfl
@[simp] theorem State.feeder_startGuard (s : State) (m : FeederNo) : s.startGuard.feeder m = s.feeder m := rfl
@[simp] theorem State.feeder_arrive (s : State) (m : FeederNo) : s.arrive.feeder m = s.feeder m := rfl
@[simp] theorem State.feeder_dropStop (s : State) (m : FeederNo) : s.dropStop.feeder m = s.feeder m := rfl
@[simp] theorem State.feeder_unqueue (s : State) (g : GensetNo) (m : FeederNo) : (s.unqueue g).feeder m = s.feeder m := rfl
@[simp] theorem State.feeder_setReleaseDelay (s : State) (t : Timer) (m : FeederNo) : (s.setReleaseDelay t).feeder m = s.feeder m := rfl
@[simp] theorem State.feeder_toPhase (s : State) (p : WalkPhase) (m : FeederNo) : (s.toPhase p).feeder m = s.feeder m := rfl
@[simp] theorem State.feeder_setWalkPermit (s : State) (h : Option Handle) (m : FeederNo) : (s.setWalkPermit h).feeder m = s.feeder m := rfl
@[simp] theorem State.feeder_raiseFlag (s : State) (n : Notice) (m : FeederNo) : (s.raiseFlag n).feeder m = s.feeder m := rfl
@[simp] theorem State.feeder_clearFlags (s : State) (m : FeederNo) : s.clearFlags.feeder m = s.feeder m := rfl
@[simp] theorem State.feeder_setRun (s : State) (l : LaneId) (r : Option Run) (k : FeederNo) :
    (s.setRun l r).feeder k = s.feeder k := by
  cases l <;> rfl

/-! ### What leaves every genset as it was -/

@[simp] theorem State.genset_setPermit (s : State) (i' : Slot) (p : Permit) (m : GensetNo) : (s.setPermit i' p).genset m = s.genset m := rfl
@[simp] theorem State.genset_setFeeder (s : State) (f : FeederNo) (r : Feeder) (m : GensetNo) : (s.setFeeder f r).genset m = s.genset m := rfl
@[simp] theorem State.genset_setArray (s : State) (a : ArrayNo) (r : ArrayRecord) (m : GensetNo) : (s.setArray a r).genset m = s.genset m := rfl
@[simp] theorem State.genset_setEntry (s : State) (u : Addr) (r : UnitEntry) (m : GensetNo) : (s.setEntry u r).genset m = s.genset m := rfl
@[simp] theorem State.genset_push (s : State) (e : Instr) (m : GensetNo) : (s.push e).genset m = s.genset m := rfl
@[simp] theorem State.genset_pushAll (s : State) (es : List Instr) (m : GensetNo) : (s.pushAll es).genset m = s.genset m := rfl
@[simp] theorem State.genset_took (s : State) (e : Instr) (m : GensetNo) : (s.took e).genset m = s.genset m := rfl
@[simp] theorem State.genset_notice (s : State) (n : Notice) (m : GensetNo) : (s.notice n).genset m = s.genset m := rfl
@[simp] theorem State.genset_place (s : State) (r : UnitRec) (o : Order) (b : Block) (u : Bool) (m : GensetNo) : (s.place r o b u).genset m = s.genset m := rfl
@[simp] theorem State.genset_withdraw (s : State) (r : UnitRec) (k : OrderKind) (b : Block) (m : GensetNo) : (s.withdraw r k b).genset m = s.genset m := rfl
@[simp] theorem State.genset_putSetting (s : State) (st : Setting) (v : Nat) (m : GensetNo) : (s.putSetting st v).genset m = s.genset m := rfl
@[simp] theorem State.genset_hold (s : State) (r : Reply) (m : GensetNo) : (s.hold r).genset m = s.genset m := rfl
@[simp] theorem State.genset_toLoop (s : State) (l : Loop) (m : GensetNo) : (s.toLoop l).genset m = s.genset m := rfl
@[simp] theorem State.genset_setUrgent (s : State) (l : List Addr) (m : GensetNo) : (s.setUrgent l).genset m = s.genset m := rfl
@[simp] theorem State.genset_endFlight (s : State) (m : GensetNo) : s.endFlight.genset m = s.genset m := rfl
@[simp] theorem State.genset_startGuard (s : State) (m : GensetNo) : s.startGuard.genset m = s.genset m := rfl
@[simp] theorem State.genset_arrive (s : State) (m : GensetNo) : s.arrive.genset m = s.genset m := rfl
@[simp] theorem State.genset_dropStop (s : State) (m : GensetNo) : s.dropStop.genset m = s.genset m := rfl
@[simp] theorem State.genset_unqueue (s : State) (g : GensetNo) (m : GensetNo) : (s.unqueue g).genset m = s.genset m := rfl
@[simp] theorem State.genset_setReleaseDelay (s : State) (t : Timer) (m : GensetNo) : (s.setReleaseDelay t).genset m = s.genset m := rfl
@[simp] theorem State.genset_toPhase (s : State) (p : WalkPhase) (m : GensetNo) : (s.toPhase p).genset m = s.genset m := rfl
@[simp] theorem State.genset_setWalkPermit (s : State) (h : Option Handle) (m : GensetNo) : (s.setWalkPermit h).genset m = s.genset m := rfl
@[simp] theorem State.genset_raiseFlag (s : State) (n : Notice) (m : GensetNo) : (s.raiseFlag n).genset m = s.genset m := rfl
@[simp] theorem State.genset_clearFlags (s : State) (m : GensetNo) : s.clearFlags.genset m = s.genset m := rfl
@[simp] theorem State.genset_setRun (s : State) (l : LaneId) (r : Option Run) (k : GensetNo) :
    (s.setRun l r).genset k = s.genset k := by
  cases l <;> rfl

/-! ### What leaves every array as it was -/

@[simp] theorem State.array_setPermit (s : State) (i' : Slot) (p : Permit) (m : ArrayNo) : (s.setPermit i' p).array m = s.array m := rfl
@[simp] theorem State.array_setFeeder (s : State) (f : FeederNo) (r : Feeder) (m : ArrayNo) : (s.setFeeder f r).array m = s.array m := rfl
@[simp] theorem State.array_setGenset (s : State) (g : GensetNo) (r : Genset) (m : ArrayNo) : (s.setGenset g r).array m = s.array m := rfl
@[simp] theorem State.array_setEntry (s : State) (u : Addr) (r : UnitEntry) (m : ArrayNo) : (s.setEntry u r).array m = s.array m := rfl
@[simp] theorem State.array_push (s : State) (e : Instr) (m : ArrayNo) : (s.push e).array m = s.array m := rfl
@[simp] theorem State.array_pushAll (s : State) (es : List Instr) (m : ArrayNo) : (s.pushAll es).array m = s.array m := rfl
@[simp] theorem State.array_took (s : State) (e : Instr) (m : ArrayNo) : (s.took e).array m = s.array m := rfl
@[simp] theorem State.array_notice (s : State) (n : Notice) (m : ArrayNo) : (s.notice n).array m = s.array m := rfl
@[simp] theorem State.array_place (s : State) (r : UnitRec) (o : Order) (b : Block) (u : Bool) (m : ArrayNo) : (s.place r o b u).array m = s.array m := rfl
@[simp] theorem State.array_withdraw (s : State) (r : UnitRec) (k : OrderKind) (b : Block) (m : ArrayNo) : (s.withdraw r k b).array m = s.array m := rfl
@[simp] theorem State.array_putSetting (s : State) (st : Setting) (v : Nat) (m : ArrayNo) : (s.putSetting st v).array m = s.array m := rfl
@[simp] theorem State.array_hold (s : State) (r : Reply) (m : ArrayNo) : (s.hold r).array m = s.array m := rfl
@[simp] theorem State.array_toLoop (s : State) (l : Loop) (m : ArrayNo) : (s.toLoop l).array m = s.array m := rfl
@[simp] theorem State.array_setUrgent (s : State) (l : List Addr) (m : ArrayNo) : (s.setUrgent l).array m = s.array m := rfl
@[simp] theorem State.array_endFlight (s : State) (m : ArrayNo) : s.endFlight.array m = s.array m := rfl
@[simp] theorem State.array_startGuard (s : State) (m : ArrayNo) : s.startGuard.array m = s.array m := rfl
@[simp] theorem State.array_arrive (s : State) (m : ArrayNo) : s.arrive.array m = s.array m := rfl
@[simp] theorem State.array_dropStop (s : State) (m : ArrayNo) : s.dropStop.array m = s.array m := rfl
@[simp] theorem State.array_unqueue (s : State) (g : GensetNo) (m : ArrayNo) : (s.unqueue g).array m = s.array m := rfl
@[simp] theorem State.array_setReleaseDelay (s : State) (t : Timer) (m : ArrayNo) : (s.setReleaseDelay t).array m = s.array m := rfl
@[simp] theorem State.array_toPhase (s : State) (p : WalkPhase) (m : ArrayNo) : (s.toPhase p).array m = s.array m := rfl
@[simp] theorem State.array_setWalkPermit (s : State) (h : Option Handle) (m : ArrayNo) : (s.setWalkPermit h).array m = s.array m := rfl
@[simp] theorem State.array_raiseFlag (s : State) (n : Notice) (m : ArrayNo) : (s.raiseFlag n).array m = s.array m := rfl
@[simp] theorem State.array_clearFlags (s : State) (m : ArrayNo) : s.clearFlags.array m = s.array m := rfl
@[simp] theorem State.array_setRun (s : State) (l : LaneId) (r : Option Run) (k : ArrayNo) :
    (s.setRun l r).array k = s.array k := by
  cases l <;> rfl

/-! ### What leaves every entry as it was -/

@[simp] theorem State.entry_setPermit (s : State) (i' : Slot) (p : Permit) (m : Addr) : (s.setPermit i' p).entry m = s.entry m := rfl
@[simp] theorem State.entry_setFeeder (s : State) (f : FeederNo) (r : Feeder) (m : Addr) : (s.setFeeder f r).entry m = s.entry m := rfl
@[simp] theorem State.entry_setGenset (s : State) (g : GensetNo) (r : Genset) (m : Addr) : (s.setGenset g r).entry m = s.entry m := rfl
@[simp] theorem State.entry_setArray (s : State) (a : ArrayNo) (r : ArrayRecord) (m : Addr) : (s.setArray a r).entry m = s.entry m := rfl
@[simp] theorem State.entry_push (s : State) (e : Instr) (m : Addr) : (s.push e).entry m = s.entry m := rfl
@[simp] theorem State.entry_pushAll (s : State) (es : List Instr) (m : Addr) : (s.pushAll es).entry m = s.entry m := rfl
@[simp] theorem State.entry_took (s : State) (e : Instr) (m : Addr) : (s.took e).entry m = s.entry m := rfl
@[simp] theorem State.entry_notice (s : State) (n : Notice) (m : Addr) : (s.notice n).entry m = s.entry m := rfl
@[simp] theorem State.entry_place (s : State) (r : UnitRec) (o : Order) (b : Block) (u : Bool) (m : Addr) : (s.place r o b u).entry m = s.entry m := rfl
@[simp] theorem State.entry_withdraw (s : State) (r : UnitRec) (k : OrderKind) (b : Block) (m : Addr) : (s.withdraw r k b).entry m = s.entry m := rfl
@[simp] theorem State.entry_putSetting (s : State) (st : Setting) (v : Nat) (m : Addr) : (s.putSetting st v).entry m = s.entry m := rfl
@[simp] theorem State.entry_hold (s : State) (r : Reply) (m : Addr) : (s.hold r).entry m = s.entry m := rfl
@[simp] theorem State.entry_toLoop (s : State) (l : Loop) (m : Addr) : (s.toLoop l).entry m = s.entry m := rfl
@[simp] theorem State.entry_setUrgent (s : State) (l : List Addr) (m : Addr) : (s.setUrgent l).entry m = s.entry m := rfl
@[simp] theorem State.entry_endFlight (s : State) (m : Addr) : s.endFlight.entry m = s.entry m := rfl
@[simp] theorem State.entry_startGuard (s : State) (m : Addr) : s.startGuard.entry m = s.entry m := rfl
@[simp] theorem State.entry_arrive (s : State) (m : Addr) : s.arrive.entry m = s.entry m := rfl
@[simp] theorem State.entry_dropStop (s : State) (m : Addr) : s.dropStop.entry m = s.entry m := rfl
@[simp] theorem State.entry_unqueue (s : State) (g : GensetNo) (m : Addr) : (s.unqueue g).entry m = s.entry m := rfl
@[simp] theorem State.entry_setReleaseDelay (s : State) (t : Timer) (m : Addr) : (s.setReleaseDelay t).entry m = s.entry m := rfl
@[simp] theorem State.entry_toPhase (s : State) (p : WalkPhase) (m : Addr) : (s.toPhase p).entry m = s.entry m := rfl
@[simp] theorem State.entry_setWalkPermit (s : State) (h : Option Handle) (m : Addr) : (s.setWalkPermit h).entry m = s.entry m := rfl
@[simp] theorem State.entry_raiseFlag (s : State) (n : Notice) (m : Addr) : (s.raiseFlag n).entry m = s.entry m := rfl
@[simp] theorem State.entry_clearFlags (s : State) (m : Addr) : s.clearFlags.entry m = s.entry m := rfl
@[simp] theorem State.entry_setRun (s : State) (l : LaneId) (r : Option Run) (k : Addr) :
    (s.setRun l r).entry k = s.entry k := by
  cases l <;> rfl

/-! ### What leaves every setting as it was -/

@[simp] theorem State.setting_setPermit (s : State) (i : Slot) (p : Permit) (m : Setting) : (s.setPermit i p).setting m = s.setting m := rfl
@[simp] theorem State.setting_setFeeder (s : State) (f : FeederNo) (r : Feeder) (m : Setting) : (s.setFeeder f r).setting m = s.setting m := rfl
@[simp] theorem State.setting_setGenset (s : State) (g : GensetNo) (r : Genset) (m : Setting) : (s.setGenset g r).setting m = s.setting m := rfl
@[simp] theorem State.setting_setArray (s : State) (a : ArrayNo) (r : ArrayRecord) (m : Setting) : (s.setArray a r).setting m = s.setting m := rfl
@[simp] theorem State.setting_setEntry (s : State) (u : Addr) (r : UnitEntry) (m : Setting) : (s.setEntry u r).setting m = s.setting m := rfl
@[simp] theorem State.setting_push (s : State) (e : Instr) (m : Setting) : (s.push e).setting m = s.setting m := rfl
@[simp] theorem State.setting_pushAll (s : State) (es : List Instr) (m : Setting) : (s.pushAll es).setting m = s.setting m := rfl
@[simp] theorem State.setting_took (s : State) (e : Instr) (m : Setting) : (s.took e).setting m = s.setting m := rfl
@[simp] theorem State.setting_notice (s : State) (n : Notice) (m : Setting) : (s.notice n).setting m = s.setting m := rfl
@[simp] theorem State.setting_place (s : State) (r : UnitRec) (o : Order) (b : Block) (u : Bool) (m : Setting) : (s.place r o b u).setting m = s.setting m := rfl
@[simp] theorem State.setting_withdraw (s : State) (r : UnitRec) (k : OrderKind) (b : Block) (m : Setting) : (s.withdraw r k b).setting m = s.setting m := rfl
@[simp] theorem State.setting_hold (s : State) (r : Reply) (m : Setting) : (s.hold r).setting m = s.setting m := rfl
@[simp] theorem State.setting_toLoop (s : State) (l : Loop) (m : Setting) : (s.toLoop l).setting m = s.setting m := rfl
@[simp] theorem State.setting_setUrgent (s : State) (l : List Addr) (m : Setting) : (s.setUrgent l).setting m = s.setting m := rfl
@[simp] theorem State.setting_endFlight (s : State) (m : Setting) : s.endFlight.setting m = s.setting m := rfl
@[simp] theorem State.setting_startGuard (s : State) (m : Setting) : s.startGuard.setting m = s.setting m := rfl
@[simp] theorem State.setting_arrive (s : State) (m : Setting) : s.arrive.setting m = s.setting m := rfl
@[simp] theorem State.setting_dropStop (s : State) (m : Setting) : s.dropStop.setting m = s.setting m := rfl
@[simp] theorem State.setting_unqueue (s : State) (g : GensetNo) (m : Setting) : (s.unqueue g).setting m = s.setting m := rfl
@[simp] theorem State.setting_setReleaseDelay (s : State) (t : Timer) (m : Setting) : (s.setReleaseDelay t).setting m = s.setting m := rfl
@[simp] theorem State.setting_toPhase (s : State) (p : WalkPhase) (m : Setting) : (s.toPhase p).setting m = s.setting m := rfl
@[simp] theorem State.setting_setWalkPermit (s : State) (h : Option Handle) (m : Setting) : (s.setWalkPermit h).setting m = s.setting m := rfl
@[simp] theorem State.setting_raiseFlag (s : State) (n : Notice) (m : Setting) : (s.raiseFlag n).setting m = s.setting m := rfl
@[simp] theorem State.setting_clearFlags (s : State) (m : Setting) : s.clearFlags.setting m = s.setting m := rfl
@[simp] theorem State.setting_setRun (s : State) (l : LaneId) (r : Option Run) (k : Setting) :
    (s.setRun l r).setting k = s.setting k := by
  cases l <;> rfl

theorem Setting.index_inj {a b : Setting} (h : a.index = b.index) : a = b := by
  cases a <;> cases b <;> first | rfl | exact absurd h (by decide)

theorem State.setting_putSetting (s : State) (a b : Setting) (v : Nat) :
    (s.putSetting a v).setting b = if a = b then v else s.setting b := by
  simp only [State.setting, State.putSetting]
  by_cases h : a = b
  · subst h; simp
  · have : a.index ≠ b.index := fun e => h (Setting.index_inj e)
    simp [h, Fin.val_inj, this]

@[simp] theorem State.run_setRun_same (s : State) (l : LaneId) (r : Option Run) : (s.setRun l r).run l = r := by
  cases l <;> rfl

theorem State.run_setRun_ne (s : State) {l k : LaneId} (r : Option Run) (h : l ≠ k) :
    (s.setRun l r).run k = s.run k := by
  cases l <;> cases k <;> first | rfl | exact absurd rfl h

end Sys2Proof.Machine
end

