-- ==== Sys2Proof/Laws/Lists.lean ====
section
/-! SUPPORT. Insertion into an ordered list, and what `enter` does: the one operation that changes a permit keeps the lists
exact and leaves the rest of the configuration alone. -/

namespace Sys2Proof.Machine

/-! ## Ordered insertion -/

theorem insertBy_perm {α : Type} (before : α → α → Bool) (a : α) (l : List α) : (insertBy before a l).Perm (a :: l) := by
  induction l with
  | nil => exact List.Perm.refl _
  | cons b l ih =>
    simp only [insertBy]
    split
    · exact List.Perm.refl _
    · exact (List.Perm.cons b ih).trans (List.Perm.swap a b l)

@[simp] theorem mem_insertBy {α : Type} (before : α → α → Bool) (a x : α) (l : List α) :
    x ∈ insertBy before a l ↔ x = a ∨ x ∈ l := by
  simpa using (insertBy_perm before a l).mem_iff (a := x)

@[simp] theorem nodup_insertBy {α : Type} (before : α → α → Bool) (a : α) (l : List α) :
    (insertBy before a l).Nodup ↔ a ∉ l ∧ l.Nodup := by
  simpa using (insertBy_perm before a l).nodup_iff

/-- An insertion keeps a list in the order that its test decides. -/
theorem insertBy_pairwise {α : Type} {R : α → α → Prop} {before : α → α → Bool} {a : α}
    (yes : ∀ b, before a b = true → R a b) (no : ∀ b, before a b = false → R b a)
    (trans : ∀ b c, R a b → R b c → R a c) {l : List α} (h : l.Pairwise R) : (insertBy before a l).Pairwise R := by
  induction l with
  | nil => simp [insertBy]
  | cons b l ih =>
    rw [List.pairwise_cons] at h
    cases k : before a b with
    | true =>
      rw [insertBy, if_pos k, List.pairwise_cons, List.pairwise_cons]
      refine ⟨fun x hx => ?_, h⟩
      rcases List.mem_cons.mp hx with rfl | hx
      · exact yes _ k
      · exact trans b x (yes b k) (h.1 x hx)
    | false =>
      rw [insertBy, if_neg (by simp [k]), List.pairwise_cons]
      refine ⟨fun x hx => ?_, ih h.2⟩
      rcases mem_insertBy before a x l |>.mp hx with rfl | hx
      · exact no b k
      · exact h.1 x hx

/-! ## What no event of a block changes -/

/-- The parts of the state that belong to the world or to the configuration. -/
structure Fixed where
  pending  : List Instr
  inReset  : Bool
  clock    : Ms
  settings : Vector Nat 30
  polls    : List Addr
  leads    : List GensetNo
  walk     : List FeederNo
  deriving DecidableEq

/-- The fixed parts of a state. -/
def State.fixed (s : State) : Fixed :=
  { pending := s.pending, inReset := s.inReset, clock := s.clock, settings := s.sp.settings, polls := s.flc.pollList
    leads := s.ic.leadOrder, walk := s.ic.restoreList.map RestoreEntry.feeder }

theorem State.setting_of_fixed {s t : State} (h : t.fixed = s.fixed) (st : Setting) : t.setting st = s.setting st := by
  have : t.sp.settings = s.sp.settings := congrArg Fixed.settings h
  simp [State.setting, this]

/-! ## The records that a permit's passage leaves alone -/

@[simp] theorem State.passFeeder_ae (s : State) (i : Slot) (old p : Permit) : (s.passFeeder i old p).ae = s.ae := by
  unfold State.passFeeder; split <;> rfl

@[simp] theorem State.passFeeder_shedList (s : State) (i : Slot) (old p : Permit) :
    (s.passFeeder i old p).se.shedList = s.se.shedList := by
  unfold State.passFeeder; split <;> rfl

@[simp] theorem State.passFeeder_seState (s : State) (i : Slot) (old p : Permit) :
    (s.passFeeder i old p).se.state = s.se.state := by
  unfold State.passFeeder; split <;> rfl

@[simp] theorem State.passFeeder_naming (s : State) (i : Slot) (old p : Permit) :
    (s.passFeeder i old p).se.naming = s.se.naming := by
  unfold State.passFeeder; split <;> rfl

@[simp] theorem State.settled_state (s : State) (old p : Permit) : (s.settled old p).state = p.state := by
  unfold State.settled; split <;> simp_all

/-! ## What `enter` leaves alone -/

@[simp] theorem State.passFeeder_pending (s : State) (i : Slot) (old p : Permit) : (s.passFeeder i old p).pending = s.pending := by
  unfold State.passFeeder; split <;> rfl

@[simp] theorem State.passFeeder_clock (s : State) (i : Slot) (old p : Permit) : (s.passFeeder i old p).clock = s.clock := by
  unfold State.passFeeder; split <;> rfl

@[simp] theorem State.passFeeder_inReset (s : State) (i : Slot) (old p : Permit) : (s.passFeeder i old p).inReset = s.inReset := by
  unfold State.passFeeder; split <;> rfl

@[simp] theorem State.passFeeder_pins (s : State) (i : Slot) (old p : Permit) : (s.passFeeder i old p).pins = s.pins := by
  unfold State.passFeeder; split <;> rfl

@[simp] theorem State.passFeeder_needs (s : State) (i : Slot) (old p : Permit) : (s.passFeeder i old p).needs = s.needs := by
  unfold State.passFeeder; split <;> rfl

@[simp] theorem State.passFeeder_gs (s : State) (i : Slot) (old p : Permit) : (s.passFeeder i old p).gs = s.gs := by
  unfold State.passFeeder; split <;> rfl

@[simp] theorem State.passFeeder_cu (s : State) (i : Slot) (old p : Permit) : (s.passFeeder i old p).cu = s.cu := by
  unfold State.passFeeder; split <;> rfl

@[simp] theorem State.passFeeder_ic (s : State) (i : Slot) (old p : Permit) : (s.passFeeder i old p).ic = s.ic := by
  unfold State.passFeeder; split <;> rfl

@[simp] theorem State.passFeeder_flc (s : State) (i : Slot) (old p : Permit) : (s.passFeeder i old p).flc = s.flc := by
  unfold State.passFeeder; split <;> rfl

@[simp] theorem State.passFeeder_sp (s : State) (i : Slot) (old p : Permit) : (s.passFeeder i old p).sp = s.sp := by
  unfold State.passFeeder; split <;> rfl

@[simp] theorem State.relist_pending (s : State) (i : Slot) (a b : PermitState) : (s.relist i a b).pending = s.pending := by
  unfold State.relist; split <;> rfl

@[simp] theorem State.relist_clock (s : State) (i : Slot) (a b : PermitState) : (s.relist i a b).clock = s.clock := by
  unfold State.relist; split <;> rfl

@[simp] theorem State.relist_inReset (s : State) (i : Slot) (a b : PermitState) : (s.relist i a b).inReset = s.inReset := by
  unfold State.relist; split <;> rfl

@[simp] theorem State.relist_pins (s : State) (i : Slot) (a b : PermitState) : (s.relist i a b).pins = s.pins := by
  unfold State.relist; split <;> rfl

@[simp] theorem State.relist_needs (s : State) (i : Slot) (a b : PermitState) : (s.relist i a b).needs = s.needs := by
  unfold State.relist; split <;> rfl

@[simp] theorem State.relist_gs (s : State) (i : Slot) (a b : PermitState) : (s.relist i a b).gs = s.gs := by
  unfold State.relist; split <;> rfl

@[simp] theorem State.relist_cu (s : State) (i : Slot) (a b : PermitState) : (s.relist i a b).cu = s.cu := by
  unfold State.relist; split <;> rfl

@[simp] theorem State.relist_ic (s : State) (i : Slot) (a b : PermitState) : (s.relist i a b).ic = s.ic := by
  unfold State.relist; split <;> rfl

@[simp] theorem State.relist_flc (s : State) (i : Slot) (a b : PermitState) : (s.relist i a b).flc = s.flc := by
  unfold State.relist; split <;> rfl

@[simp] theorem State.relist_sp (s : State) (i : Slot) (a b : PermitState) : (s.relist i a b).sp = s.sp := by
  unfold State.relist; split <;> rfl

@[simp] theorem State.enter_pending (s : State) (i : Slot) (p : Permit) : (s.enter i p).pending = s.pending := by
  simp only [State.enter]; split <;> simp

@[simp] theorem State.enter_clock (s : State) (i : Slot) (p : Permit) : (s.enter i p).clock = s.clock := by
  simp only [State.enter]; split <;> simp

@[simp] theorem State.enter_inReset (s : State) (i : Slot) (p : Permit) : (s.enter i p).inReset = s.inReset := by
  simp only [State.enter]; split <;> simp

@[simp] theorem State.enter_pins (s : State) (i : Slot) (p : Permit) : (s.enter i p).pins = s.pins := by
  simp only [State.enter]; split <;> simp

@[simp] theorem State.enter_needs (s : State) (i : Slot) (p : Permit) : (s.enter i p).needs = s.needs := by
  simp only [State.enter]; split <;> simp

@[simp] theorem State.enter_gs (s : State) (i : Slot) (p : Permit) : (s.enter i p).gs = s.gs := by
  simp only [State.enter]; split <;> simp

@[simp] theorem State.enter_cu (s : State) (i : Slot) (p : Permit) : (s.enter i p).cu = s.cu := by
  simp only [State.enter]; split <;> simp

@[simp] theorem State.enter_ic (s : State) (i : Slot) (p : Permit) : (s.enter i p).ic = s.ic := by
  simp only [State.enter]; split <;> simp

@[simp] theorem State.enter_flc (s : State) (i : Slot) (p : Permit) : (s.enter i p).flc = s.flc := by
  simp only [State.enter]; split <;> simp

@[simp] theorem State.enter_sp (s : State) (i : Slot) (p : Permit) : (s.enter i p).sp = s.sp := by
  simp only [State.enter]; split <;> simp

@[simp] theorem State.relist_permits (s : State) (i : Slot) (a b : PermitState) : (s.relist i a b).ae.permits = s.ae.permits := by
  unfold State.relist; split <;> rfl

@[simp] theorem State.relist_stepGuard (s : State) (i : Slot) (a b : PermitState) : (s.relist i a b).ae.stepGuard = s.ae.stepGuard := by
  unfold State.relist; split <;> rfl

@[simp] theorem State.relist_inFlight (s : State) (i : Slot) (a b : PermitState) : (s.relist i a b).ae.inFlight = s.ae.inFlight := by
  unfold State.relist; split <;> rfl

@[simp] theorem State.relist_arrivals (s : State) (i : Slot) (a b : PermitState) : (s.relist i a b).ae.arrivals = s.ae.arrivals := by
  unfold State.relist; split <;> rfl

@[simp] theorem State.relist_candidate (s : State) (i : Slot) (a b : PermitState) : (s.relist i a b).ae.candidate = s.ae.candidate := by
  unfold State.relist; split <;> rfl

@[simp] theorem State.relist_feeders (s : State) (i : Slot) (a b : PermitState) : (s.relist i a b).se.feeders = s.se.feeders := by
  unfold State.relist; split <;> rfl

@[simp] theorem State.relist_seState (s : State) (i : Slot) (a b : PermitState) : (s.relist i a b).se.state = s.se.state := by
  unfold State.relist; split <;> rfl

@[simp] theorem State.relist_naming (s : State) (i : Slot) (a b : PermitState) : (s.relist i a b).se.naming = s.se.naming := by
  unfold State.relist; split <;> rfl

@[simp] theorem State.relist_events (s : State) (i : Slot) (a b : PermitState) : (s.relist i a b).events = s.events := by
  unfold State.relist; split <;> rfl

@[simp] theorem State.enter_stepGuard (s : State) (i : Slot) (p : Permit) : (s.enter i p).ae.stepGuard = s.ae.stepGuard := by
  simp only [State.enter]; split <;> simp

@[simp] theorem State.enter_arrivals (s : State) (i : Slot) (p : Permit) : (s.enter i p).ae.arrivals = s.ae.arrivals := by
  simp only [State.enter]; split <;> simp

@[simp] theorem State.enter_candidate (s : State) (i : Slot) (p : Permit) : (s.enter i p).ae.candidate = s.ae.candidate := by
  simp only [State.enter]; split <;> simp

@[simp] theorem State.enter_seState (s : State) (i : Slot) (p : Permit) : (s.enter i p).se.state = s.se.state := by
  simp only [State.enter]; split <;> simp

@[simp] theorem State.enter_naming (s : State) (i : Slot) (p : Permit) : (s.enter i p).se.naming = s.se.naming := by
  simp only [State.enter]; split <;> simp

@[simp] theorem State.passFeeder_events (s : State) (i : Slot) (old p : Permit) : (s.passFeeder i old p).events = s.events := by
  unfold State.passFeeder; split <;> rfl

@[simp] theorem State.passFeeder_permit (s : State) (i : Slot) (old p : Permit) (j : Slot) :
    (s.passFeeder i old p).permit j = s.permit j := by
  simp [State.permit]

@[simp] theorem State.relist_permit (s : State) (i : Slot) (a b : PermitState) (j : Slot) :
    (s.relist i a b).permit j = s.permit j := by
  simp [State.permit]

@[simp] theorem State.relist_feeder (s : State) (i : Slot) (a b : PermitState) (f : FeederNo) :
    (s.relist i a b).feeder f = s.feeder f := by
  simp [State.feeder]

@[simp] theorem State.enter_fixed (s : State) (i : Slot) (p : Permit) : (s.enter i p).fixed = s.fixed := by
  simp [State.fixed]

@[simp] theorem State.enter_genset (s : State) (i : Slot) (p : Permit) (g : GensetNo) :
    (s.enter i p).genset g = s.genset g := by
  simp [State.genset]

@[simp] theorem State.enter_array (s : State) (i : Slot) (p : Permit) (a : ArrayNo) : (s.enter i p).array a = s.array a := by
  simp [State.array]

@[simp] theorem State.enter_entry (s : State) (i : Slot) (p : Permit) (u : Addr) : (s.enter i p).entry u = s.entry u := by
  simp [State.entry]

@[simp] theorem State.enter_setting (s : State) (i : Slot) (p : Permit) (st : Setting) :
    (s.enter i p).setting st = s.setting st := by
  simp [State.setting]

@[simp] theorem State.enter_active (s : State) (i : Slot) (p : Permit) : (s.enter i p).active = s.active := by
  simp [State.active]

/-! ## What `enter` does -/

/-- The permit in the slot becomes what its state keeps of the new record; every other slot is as it was. -/
theorem State.permit_enter (s : State) (i j : Slot) (p : Permit) :
    (s.enter i p).permit j = if i = j then s.settled (s.permit i) p else s.permit j := by
  simp only [State.enter]
  split
  · show ((State.relist _ _ _ _).permit j) = _
    simp [State.permit_setPermit]
  · simp [State.permit_setPermit]

@[simp] theorem State.permit_enter_same (s : State) (i : Slot) (p : Permit) :
    (s.enter i p).permit i = s.settled (s.permit i) p := by
  simp [State.permit_enter]

theorem State.permit_enter_ne (s : State) {i j : Slot} (p : Permit) (h : i ≠ j) : (s.enter i p).permit j = s.permit j := by
  simp [State.permit_enter, h]

/-- The feeder records after a passage. -/
theorem State.feeder_enter (s : State) (i : Slot) (p : Permit) (f : FeederNo) :
    (s.enter i p).feeder f = (s.passFeeder i (s.permit i) p).feeder f := by
  simp only [State.enter]
  split
  · show ((State.relist _ _ _ _).feeder f) = _
    simp
  · simp

/-- The breaker state and the LOCAL mark are the SE's: no passage moves them. -/
theorem State.feeder_enter_breaker (s : State) (i : Slot) (p : Permit) (f : FeederNo) :
    ((s.enter i p).feeder f).breaker = (s.feeder f).breaker ∧ ((s.enter i p).feeder f).isLocal = (s.feeder f).isLocal
      ∧ ((s.enter i p).feeder f).addr = (s.feeder f).addr ∧ ((s.enter i p).feeder f).cls = (s.feeder f).cls
      ∧ ((s.enter i p).feeder f).pickup = (s.feeder f).pickup
      ∧ ((s.enter i p).feeder f).lockout = (s.feeder f).lockout := by
  rw [State.feeder_enter]
  unfold State.passFeeder
  split
  · simp
  · rename_i g h
    by_cases e : g = f
    · subst e; simp
    · simp [State.feeder_setFeeder, e]

/-- One list of a state after a slot has passed from one state to another. -/
theorem holds_passage {s t : State} {i : Slot} {l : List Slot} {q : PermitState} (before : s.holdsExactly l q)
    (l' : List Slot) (now : PermitState) (hi : (t.permit i).state = now) (hj : ∀ j, i ≠ j → t.permit j = s.permit j)
    (hl : if now = q then l'.Perm (i :: l.erase i) else l'.Perm (l.erase i)) : t.holdsExactly l' q := by
  obtain ⟨nd, ex⟩ := before
  have he : ∀ j, j ∈ l.erase i ↔ j ≠ i ∧ j ∈ l := fun j => by simpa using nd.mem_erase_iff (a := j) (b := i)
  split at hl
  · refine ⟨hl.nodup_iff.2 (List.nodup_cons.2 ⟨fun m => ((he i).1 m).1 rfl, nd.erase i⟩), fun j => ?_⟩
    rw [hl.mem_iff, List.mem_cons, he]
    by_cases e : i = j
    · subst e; simp_all
    · simp [hj j e, ← ex, Ne.symm e]
  · refine ⟨hl.nodup_iff.2 (nd.erase i), fun j => ?_⟩
    rw [hl.mem_iff, he]
    by_cases e : i = j
    · subst e; simp_all
    · simp [hj j e, ← ex, Ne.symm e]

/-- The lists of the passage of one slot. -/
theorem State.relist_lists (s : State) (i : Slot) (was now : PermitState) (h : was ≠ now) :
    (s.relist i was now).ae.waitQueue =
        (if now = .queued then insertBy s.waitsBefore i (s.ae.waitQueue.erase i) else s.ae.waitQueue.erase i)
      ∧ (s.relist i was now).ae.releaseList =
        (if now = .staging then s.ae.releaseList.erase i ++ [i] else s.ae.releaseList.erase i)
      ∧ (s.relist i was now).se.shedList =
        (if now = .shed then insertBy s.shedBefore i (s.se.shedList.erase i) else s.se.shedList.erase i) := by
  simp [State.relist, h]

/-- Equal slots' states and equal lists keep the lists exact. -/
theorem State.listsExact_congr {s t : State} (h : s.listsExact)
    (hp : ∀ i, (t.permit i).state = (s.permit i).state) (hw : t.ae.waitQueue = s.ae.waitQueue)
    (hr : t.ae.releaseList = s.ae.releaseList) (hs : t.se.shedList = s.se.shedList) : t.listsExact := by
  simpa [State.listsExact, State.holdsExactly, hp, hw, hr, hs] using h

/-- The lists of a state after `enter`. -/
theorem State.enter_lists (s : State) (i : Slot) (p : Permit) :
    (s.enter i p).ae.waitQueue =
        (((s.passFeeder i (s.permit i) p).setPermit i (s.settled (s.permit i) p)).relist i (s.permit i).state
          p.state).ae.waitQueue
      ∧ (s.enter i p).ae.releaseList =
        (((s.passFeeder i (s.permit i) p).setPermit i (s.settled (s.permit i) p)).relist i (s.permit i).state
          p.state).ae.releaseList
      ∧ (s.enter i p).se.shedList =
        (((s.passFeeder i (s.permit i) p).setPermit i (s.settled (s.permit i) p)).relist i (s.permit i).state
          p.state).se.shedList := by
  simp only [State.enter]
  split <;> exact ⟨rfl, rfl, rfl⟩

/-- A passage that stays in its state leaves the lists as they were. -/
theorem State.enter_lists_stay (s : State) (i : Slot) (p : Permit) (h : p.state = (s.permit i).state) :
    (s.enter i p).ae.waitQueue = s.ae.waitQueue ∧ (s.enter i p).ae.releaseList = s.ae.releaseList
      ∧ (s.enter i p).se.shedList = s.se.shedList := by
  obtain ⟨a, b, c⟩ := s.enter_lists i p
  rw [a, b, c]
  simp [State.relist, h]

/-- Every list holds exactly the permits in its state after a passage (R32, R35, R67). -/
@[simp] theorem State.enter_listsExact (s : State) (i : Slot) (p : Permit) (h : s.listsExact) : (s.enter i p).listsExact := by
  by_cases e : (s.permit i).state = p.state
  · obtain ⟨a, b, c⟩ := s.enter_lists_stay i p e.symm
    refine State.listsExact_congr h (fun j => ?_) a b c
    by_cases k : i = j
    · subst k; simp [e]
    · simp [State.permit_enter, k]
  · obtain ⟨a, b, c⟩ := s.enter_lists i p
    obtain ⟨a', b', c'⟩ :=
      State.relist_lists ((s.passFeeder i (s.permit i) p).setPermit i (s.settled (s.permit i) p)) i _ _ e
    obtain ⟨hw, hr, hs⟩ := h
    have hi : ((s.enter i p).permit i).state = p.state := by simp
    have hj : ∀ j, i ≠ j → (s.enter i p).permit j = s.permit j := fun j k => State.permit_enter_ne s p k
    refine ⟨holds_passage hw _ p.state hi hj ?_, holds_passage hr _ p.state hi hj ?_, holds_passage hs _ p.state hi hj ?_⟩
    · rw [a, a']
      split <;> simp [insertBy_perm]
    · rw [b, b']
      split
      · simp
      · simp
    · rw [c, c']
      split <;> simp [insertBy_perm]

end Sys2Proof.Machine
end

