-- ==== Sys2Proof/Laws/Kept.lean ====
section
/-! SUPPORT. Every operation of a block leaves the configuration alone and keeps the lists exact: one lemma of each kind per
operation, which later proofs cite in place of the operation's text. -/

set_option linter.unusedSimpArgs false
set_option linter.unusedTactic false
set_option linter.unreachableTactic false
set_option linter.unnecessarySimpa false

namespace Sys2Proof.Machine

/-! ## A state with one block written anew -/

@[simp↓] theorem fixed_with_events (s : State) (x : List Instr) : State.fixed { s with events := x } = s.fixed := rfl
@[simp↓] theorem fixed_with_pins (s : State) (x : Pins) : State.fixed { s with pins := x } = s.fixed := rfl
@[simp↓] theorem fixed_with_needs (s : State) (x : Needs) : State.fixed { s with needs := x } = s.fixed := rfl
@[simp↓] theorem fixed_with_ae (s : State) (x : Admission) : State.fixed { s with ae := x } = s.fixed := rfl
@[simp↓] theorem fixed_with_se (s : State) (x : Shedding) : State.fixed { s with se := x } = s.fixed := rfl
@[simp↓] theorem fixed_with_se_ae (s : State) (x : Shedding) (y : Admission) :
    State.fixed { s with se := x, ae := y } = s.fixed := rfl
@[simp↓] theorem fixed_with_gs (s : State) (x : Sequencer) : State.fixed { s with gs := x } = s.fixed := rfl
@[simp↓] theorem fixed_with_cu (s : State) (x : Curtailment) : State.fixed { s with cu := x } = s.fixed := rfl
@[simp↓] theorem fixed_with_ic (s : State) (x : Island) (h : x.leadOrder = s.ic.leadOrder)
    (h' : x.restoreList.map RestoreEntry.feeder = s.ic.restoreList.map RestoreEntry.feeder) :
    State.fixed { s with ic := x } = s.fixed := by
  simp only [State.fixed, h, h']
@[simp↓] theorem fixed_with_flc (s : State) (x : FieldLoop) (h : x.pollList = s.flc.pollList) :
    State.fixed { s with flc := x } = s.fixed := by
  simp only [State.fixed, h]
@[simp↓] theorem fixed_with_sp (s : State) (x : Port) (h : x.settings = s.sp.settings) :
    State.fixed { s with sp := x } = s.fixed := by
  simp only [State.fixed, h]

@[simp↓] theorem listsExact_with_events (s : State) (x : List Instr) :
    State.listsExact { s with events := x } ↔ s.listsExact := Iff.rfl
@[simp↓] theorem listsExact_with_pins (s : State) (x : Pins) :
    State.listsExact { s with pins := x } ↔ s.listsExact := Iff.rfl
@[simp↓] theorem listsExact_with_needs (s : State) (x : Needs) :
    State.listsExact { s with needs := x } ↔ s.listsExact := Iff.rfl
@[simp↓] theorem listsExact_with_gs (s : State) (x : Sequencer) :
    State.listsExact { s with gs := x } ↔ s.listsExact := Iff.rfl
@[simp↓] theorem listsExact_with_cu (s : State) (x : Curtailment) :
    State.listsExact { s with cu := x } ↔ s.listsExact := Iff.rfl
@[simp↓] theorem listsExact_with_ic (s : State) (x : Island) :
    State.listsExact { s with ic := x } ↔ s.listsExact := Iff.rfl
@[simp↓] theorem listsExact_with_flc (s : State) (x : FieldLoop) :
    State.listsExact { s with flc := x } ↔ s.listsExact := Iff.rfl
@[simp↓] theorem listsExact_with_sp (s : State) (x : Port) :
    State.listsExact { s with sp := x } ↔ s.listsExact := Iff.rfl
@[simp↓] theorem listsExact_with_ae (s : State) (x : Admission) (hp : x.permits = s.ae.permits)
    (hw : x.waitQueue = s.ae.waitQueue) (hr : x.releaseList = s.ae.releaseList) :
    State.listsExact { s with ae := x } ↔ s.listsExact := by
  simp only [State.listsExact, State.holdsExactly, State.permit, hp, hw, hr]
@[simp↓] theorem listsExact_with_se (s : State) (x : Shedding) (hs : x.shedList = s.se.shedList) :
    State.listsExact { s with se := x } ↔ s.listsExact := by
  simp only [State.listsExact, State.holdsExactly, State.permit, hs]
@[simp↓] theorem listsExact_with_se_ae (s : State) (x : Shedding) (y : Admission) (hp : y.permits = s.ae.permits)
    (hw : y.waitQueue = s.ae.waitQueue) (hr : y.releaseList = s.ae.releaseList) (hs : x.shedList = s.se.shedList) :
    State.listsExact { s with se := x, ae := y } ↔ s.listsExact := by
  simp only [State.listsExact, State.holdsExactly, State.permit, hp, hw, hr, hs]

/-! ## Folds and claims -/

theorem foldl_fixed {α : Type} (f : State → α → State) (h : ∀ t a, (f t a).fixed = t.fixed) (l : List α) (s : State) :
    (l.foldl f s).fixed = s.fixed := by
  induction l generalizing s with
  | nil => rfl
  | cons a l ih => simp [ih, h]

theorem foldl_listsExact {α : Type} (f : State → α → State) (h : ∀ t a, t.listsExact → (f t a).listsExact) (l : List α)
    (s : State) (e : s.listsExact) : (l.foldl f s).listsExact := by
  induction l generalizing s with
  | nil => exact e
  | cons a l ih => exact ih _ (h _ _ e)

/-- An accepted claim is the change, with its updates sent (R6). -/
theorem State.claim_some {s t : State} {f : State → State} (h : s.claim f = some t) :
    t = s.notify (f s) ∧ (0 ≤ (f s).headroom ∨ (f s).chargedLoad ≤ s.chargedLoad) := by
  simp only [State.claim] at h
  split at h
  · exact ⟨(Option.some.inj h).symm, by assumption⟩
  · cases h

/-! ## The updates of one record -/

@[simp] theorem State.setPermit_fixed (s : State) (i : Slot) (p : Permit) : (s.setPermit i p).fixed = s.fixed := rfl
@[simp] theorem State.setFeeder_fixed (s : State) (f : FeederNo) (r : Feeder) : (s.setFeeder f r).fixed = s.fixed := rfl
@[simp] theorem State.setFeeder_listsExact (s : State) (f : FeederNo) (r : Feeder) : (s.setFeeder f r).listsExact ↔ s.listsExact := Iff.rfl
@[simp] theorem State.setGenset_fixed (s : State) (g : GensetNo) (r : Genset) : (s.setGenset g r).fixed = s.fixed := rfl
@[simp] theorem State.setGenset_listsExact (s : State) (g : GensetNo) (r : Genset) : (s.setGenset g r).listsExact ↔ s.listsExact := Iff.rfl
@[simp] theorem State.setArray_fixed (s : State) (a : ArrayNo) (r : ArrayRecord) : (s.setArray a r).fixed = s.fixed := rfl
@[simp] theorem State.setArray_listsExact (s : State) (a : ArrayNo) (r : ArrayRecord) : (s.setArray a r).listsExact ↔ s.listsExact := Iff.rfl
@[simp] theorem State.setEntry_fixed (s : State) (u : Addr) (r : UnitEntry) : (s.setEntry u r).fixed = s.fixed := rfl
@[simp] theorem State.setEntry_listsExact (s : State) (u : Addr) (r : UnitEntry) : (s.setEntry u r).listsExact ↔ s.listsExact := Iff.rfl
@[simp] theorem State.push_fixed (s : State) (e : Instr) : (s.push e).fixed = s.fixed := rfl
@[simp] theorem State.push_listsExact (s : State) (e : Instr) : (s.push e).listsExact ↔ s.listsExact := Iff.rfl
@[simp] theorem State.pushAll_fixed (s : State) (es : List Instr) : (s.pushAll es).fixed = s.fixed := rfl
@[simp] theorem State.pushAll_listsExact (s : State) (es : List Instr) : (s.pushAll es).listsExact ↔ s.listsExact := Iff.rfl
@[simp] theorem State.took_fixed (s : State) (e : Instr) : (s.took e).fixed = s.fixed := rfl
@[simp] theorem State.took_listsExact (s : State) (e : Instr) : (s.took e).listsExact ↔ s.listsExact := Iff.rfl
@[simp] theorem State.notice_fixed (s : State) (n : Notice) : (s.notice n).fixed = s.fixed := rfl
@[simp] theorem State.notice_listsExact (s : State) (n : Notice) : (s.notice n).listsExact ↔ s.listsExact := Iff.rfl
@[simp] theorem State.place_fixed (s : State) (r : UnitRec) (o : Order) (b : Block) (u : Bool) : (s.place r o b u).fixed = s.fixed := rfl
@[simp] theorem State.place_listsExact (s : State) (r : UnitRec) (o : Order) (b : Block) (u : Bool) : (s.place r o b u).listsExact ↔ s.listsExact := Iff.rfl
@[simp] theorem State.withdraw_fixed (s : State) (r : UnitRec) (k : OrderKind) (b : Block) : (s.withdraw r k b).fixed = s.fixed := rfl
@[simp] theorem State.withdraw_listsExact (s : State) (r : UnitRec) (k : OrderKind) (b : Block) : (s.withdraw r k b).listsExact ↔ s.listsExact := Iff.rfl
@[simp] theorem State.putSetting_listsExact (s : State) (st : Setting) (v : Nat) :
    (s.putSetting st v).listsExact ↔ s.listsExact := Iff.rfl
@[simp] theorem State.hold_fixed (s : State) (r : Reply) : (s.hold r).fixed = s.fixed := rfl
@[simp] theorem State.hold_listsExact (s : State) (r : Reply) : (s.hold r).listsExact ↔ s.listsExact := Iff.rfl
@[simp] theorem State.toLoop_fixed (s : State) (l : Loop) : (s.toLoop l).fixed = s.fixed := rfl
@[simp] theorem State.toLoop_listsExact (s : State) (l : Loop) : (s.toLoop l).listsExact ↔ s.listsExact := Iff.rfl
@[simp] theorem State.setUrgent_fixed (s : State) (l : List Addr) : (s.setUrgent l).fixed = s.fixed := rfl
@[simp] theorem State.setUrgent_listsExact (s : State) (l : List Addr) : (s.setUrgent l).listsExact ↔ s.listsExact := Iff.rfl
@[simp] theorem State.endFlight_fixed (s : State) : s.endFlight.fixed = s.fixed := rfl
@[simp] theorem State.endFlight_listsExact (s : State) : s.endFlight.listsExact ↔ s.listsExact := Iff.rfl
@[simp] theorem State.startGuard_fixed (s : State) : s.startGuard.fixed = s.fixed := rfl
@[simp] theorem State.startGuard_listsExact (s : State) : s.startGuard.listsExact ↔ s.listsExact := Iff.rfl
@[simp] theorem State.arrive_fixed (s : State) : s.arrive.fixed = s.fixed := rfl
@[simp] theorem State.arrive_listsExact (s : State) : s.arrive.listsExact ↔ s.listsExact := Iff.rfl
@[simp] theorem State.dropStop_fixed (s : State) : s.dropStop.fixed = s.fixed := rfl
@[simp] theorem State.dropStop_listsExact (s : State) : s.dropStop.listsExact ↔ s.listsExact := Iff.rfl
@[simp] theorem State.unqueue_fixed (s : State) (g : GensetNo) : (s.unqueue g).fixed = s.fixed := rfl
@[simp] theorem State.unqueue_listsExact (s : State) (g : GensetNo) : (s.unqueue g).listsExact ↔ s.listsExact := Iff.rfl
@[simp] theorem State.setReleaseDelay_fixed (s : State) (t : Timer) : (s.setReleaseDelay t).fixed = s.fixed := rfl
@[simp] theorem State.setReleaseDelay_listsExact (s : State) (t : Timer) : (s.setReleaseDelay t).listsExact ↔ s.listsExact := Iff.rfl
@[simp] theorem State.toPhase_fixed (s : State) (p : WalkPhase) : (s.toPhase p).fixed = s.fixed := rfl
@[simp] theorem State.toPhase_listsExact (s : State) (p : WalkPhase) : (s.toPhase p).listsExact ↔ s.listsExact := Iff.rfl
@[simp] theorem State.setWalkPermit_fixed (s : State) (h : Option Handle) : (s.setWalkPermit h).fixed = s.fixed := rfl
@[simp] theorem State.setWalkPermit_listsExact (s : State) (h : Option Handle) : (s.setWalkPermit h).listsExact ↔ s.listsExact := Iff.rfl
@[simp] theorem State.raiseFlag_fixed (s : State) (n : Notice) : (s.raiseFlag n).fixed = s.fixed := rfl
@[simp] theorem State.raiseFlag_listsExact (s : State) (n : Notice) : (s.raiseFlag n).listsExact ↔ s.listsExact := Iff.rfl
@[simp] theorem State.clearFlags_fixed (s : State) : s.clearFlags.fixed = s.fixed := rfl
@[simp] theorem State.clearFlags_listsExact (s : State) : s.clearFlags.listsExact ↔ s.listsExact := Iff.rfl
@[simp] theorem State.setRun_fixed (s : State) (l : LaneId) (r : Option Run) : (s.setRun l r).fixed = s.fixed := by
  cases l <;> rfl
@[simp] theorem State.setRun_listsExact (s : State) (l : LaneId) (r : Option Run) :
    (s.setRun l r).listsExact ↔ s.listsExact := by
  cases l <;> exact Iff.rfl
@[simp] theorem State.burn_fixed (s : State) (i : Slot) : (s.burn i).fixed = s.fixed := rfl

/-- A permit record whose state stays leaves the lists exact. -/
theorem State.setPermit_listsExact (s : State) (i : Slot) (p : Permit) (e : p.state = (s.permit i).state)
    (h : s.listsExact) : (s.setPermit i p).listsExact := by
  refine State.listsExact_congr h (fun j => ?_) rfl rfl rfl
  by_cases k : i = j
  · subst k; simp [e]
  · simp [State.permit_setPermit, k]

theorem State.burn_listsExact (s : State) (i : Slot) (e : (s.permit i).state = .free) (h : s.listsExact) :
    (s.burn i).listsExact := State.setPermit_listsExact s i _ e.symm h

@[simp] theorem State.notify_fixed (s t : State) : (s.notify t).fixed = t.fixed := rfl
@[simp] theorem State.notify_listsExact (s t : State) : (s.notify t).listsExact ↔ t.listsExact := Iff.rfl
@[simp] theorem State.post_fixed (s : State) (f : State → State) : (s.post f).fixed = (f s).fixed := rfl
@[simp] theorem State.post_listsExact (s : State) (f : State → State) : (s.post f).listsExact ↔ (f s).listsExact := Iff.rfl

/-! ## Account -/

@[simp] theorem State.setNeed_fixed (s : State) (source : NeedSource) (kw : Option Kw) : (s.setNeed source kw).fixed = s.fixed := by
  simp only [State.setNeed]
  repeat' split
  all_goals simp_all [foldl_fixed]

@[simp] theorem State.setNeed_listsExact (s : State) (source : NeedSource) (kw : Option Kw) (e₀ : s.listsExact) : (s.setNeed source kw).listsExact := by
  simp only [State.setNeed]
  repeat' split
  all_goals simp_all +contextual (maxDischargeDepth := 20) [foldl_listsExact]

/-! ## Permits -/

@[simp] theorem State.freed_fixed (s : State) (i : Slot) : (s.freed i).fixed = s.fixed := by
  simp only [State.freed]
  repeat' split
  all_goals simp_all [foldl_fixed]

@[simp] theorem State.freed_listsExact (s : State) (i : Slot) (e₀ : s.listsExact) : (s.freed i).listsExact := by
  simp only [State.freed]
  repeat' split
  all_goals simp_all +contextual (maxDischargeDepth := 20) [foldl_listsExact]

@[simp] theorem State.free_fixed (s : State) (i : Slot) : (s.free i).fixed = s.fixed := by
  simp only [State.free]
  repeat' split
  all_goals simp_all [foldl_fixed]

@[simp] theorem State.free_listsExact (s : State) (i : Slot) (e₀ : s.listsExact) : (s.free i).listsExact := by
  simp only [State.free]
  repeat' split
  all_goals simp_all +contextual (maxDischargeDepth := 20) [foldl_listsExact]

@[simp] theorem State.revoke_fixed (s : State) (i : Slot) (reason : RevokeReason) : (s.revoke i reason).fixed = s.fixed := by
  simp only [State.revoke]
  repeat' split
  all_goals simp_all [foldl_fixed]

@[simp] theorem State.revoke_listsExact (s : State) (i : Slot) (reason : RevokeReason) (e₀ : s.listsExact) : (s.revoke i reason).listsExact := by
  simp only [State.revoke]
  repeat' split
  all_goals simp_all +contextual (maxDischargeDepth := 20) [foldl_listsExact]

/-! ## Service -/

@[simp] theorem State.aePlace_fixed (s : State) (f : FeederNo) (o : Order) : (s.aePlace f o).fixed = s.fixed := by
  simp only [State.aePlace]
  repeat' split
  all_goals simp_all [foldl_fixed]

@[simp] theorem State.aePlace_listsExact (s : State) (f : FeederNo) (o : Order) (e₀ : s.listsExact) : (s.aePlace f o).listsExact := by
  simp only [State.aePlace]
  repeat' split
  all_goals simp_all +contextual (maxDischargeDepth := 20) [foldl_listsExact]

@[simp] theorem State.aeEmpty_fixed (s : State) (f : FeederNo) : (s.aeEmpty f).fixed = s.fixed := by
  simp only [State.aeEmpty]
  repeat' split
  all_goals simp_all [foldl_fixed]

@[simp] theorem State.aeEmpty_listsExact (s : State) (f : FeederNo) (e₀ : s.listsExact) : (s.aeEmpty f).listsExact := by
  simp only [State.aeEmpty]
  repeat' split
  all_goals simp_all +contextual (maxDischargeDepth := 20) [foldl_listsExact]

@[simp] theorem State.confirmGrant_fixed (s : State) (i : Slot) : (s.confirmGrant i).fixed = s.fixed := by
  simp only [State.confirmGrant]
  repeat' split
  all_goals simp_all [foldl_fixed]

@[simp] theorem State.confirmGrant_listsExact (s : State) (i : Slot) (e₀ : s.listsExact) : (s.confirmGrant i).listsExact := by
  simp only [State.confirmGrant]
  repeat' split
  all_goals simp_all +contextual (maxDischargeDepth := 20) [foldl_listsExact]

@[simp] theorem State.judgeNeed_fixed (s : State) : s.judgeNeed.fixed = s.fixed := by
  simp only [State.judgeNeed]
  repeat' split
  all_goals simp_all [foldl_fixed]

@[simp] theorem State.judgeNeed_listsExact (s : State) (e₀ : s.listsExact) : s.judgeNeed.listsExact := by
  simp only [State.judgeNeed]
  repeat' split
  all_goals simp_all +contextual (maxDischargeDepth := 20) [foldl_listsExact]

@[simp] theorem State.serveCandidate_fixed (s : State) : s.serveCandidate.fixed = s.fixed := by
  simp only [State.serveCandidate]
  split
  · rfl
  · split
    · rfl
    · split
      · split
        · rename_i t h
          obtain ⟨rfl, -⟩ := State.claim_some h
          simp
        · rfl
      · rfl

@[simp] theorem State.serveCandidate_listsExact (s : State) (e₀ : s.listsExact) : s.serveCandidate.listsExact := by
  have e₁ : State.listsExact { s with ae := { s.ae with candidate := none } } := e₀
  simp only [State.serveCandidate]
  split
  · exact e₀
  · split
    · exact e₁
    · split
      · split
        · rename_i t h
          obtain ⟨rfl, -⟩ := State.claim_some h
          simp [State.enter_listsExact _ _ _ e₁]
        · exact e₁
      · exact e₁

@[simp] theorem State.named?_fixed (s : State) (h : Handle) : (s.named? h).fixed = s.fixed := by
  simp only [State.named?]
  repeat' split
  all_goals simp_all [foldl_fixed]

@[simp] theorem State.named?_listsExact (s : State) (h : Handle) (e₀ : s.listsExact) : (s.named? h).listsExact := by
  simp only [State.named?]
  repeat' split
  all_goals simp_all +contextual (maxDischargeDepth := 20) [foldl_listsExact]

@[simp] theorem State.serveRelease_fixed (s : State) : s.serveRelease.fixed = s.fixed := by
  simp only [State.serveRelease]
  repeat' split
  all_goals simp_all [foldl_fixed]

@[simp] theorem State.serveRelease_listsExact (s : State) (e₀ : s.listsExact) : s.serveRelease.listsExact := by
  simp only [State.serveRelease]
  repeat' split
  all_goals simp_all +contextual (maxDischargeDepth := 20) [foldl_listsExact]





/-! ## Shed -/

theorem State.serveQueue_fixed (n : Nat) (s : State) : (State.serveQueue n s).fixed = s.fixed := by
  induction n generalizing s with
  | zero => rfl
  | succ n ih =>
    simp only [State.serveQueue]
    split
    · rfl
    · split
      · rename_i t h
        obtain ⟨rfl, -⟩ := State.claim_some h
        simp [ih]
      · rfl

theorem State.serveQueue_listsExact (n : Nat) (s : State) (e₀ : s.listsExact) : (State.serveQueue n s).listsExact := by
  induction n generalizing s with
  | zero => exact e₀
  | succ n ih =>
    simp only [State.serveQueue]
    split
    · exact e₀
    · split
      · rename_i t h
        obtain ⟨rfl, -⟩ := State.claim_some h
        exact ih _ (by simp (maxDischargeDepth := 20) [e₀])
      · exact e₀

@[simp] theorem State.serve_fixed (s : State) : s.serve.fixed = s.fixed := by
  simp only [State.serve]
  repeat' split
  all_goals simp_all [State.serveQueue_fixed]

@[simp] theorem State.serve_listsExact (s : State) (e₀ : s.listsExact) : s.serve.listsExact := by
  simp only [State.serve]
  repeat' split
  all_goals simp_all (maxDischargeDepth := 20) [State.serveQueue_listsExact]

@[simp] theorem State.settleAdmission_fixed (before after : State) : (State.settleAdmission before after).fixed = after.fixed := by
  simp only [State.settleAdmission]
  repeat' split
  all_goals simp_all (maxDischargeDepth := 20)

@[simp] theorem State.settleAdmission_listsExact (before after : State) (e₀ : after.listsExact) :
    (State.settleAdmission before after).listsExact := by
  simp only [State.settleAdmission]
  repeat' split
  all_goals simp_all (maxDischargeDepth := 20)

/-- The slot that a new permit takes is FREE (R19). -/
theorem State.freeSlot_free {s : State} {i : Slot} (h : s.freeSlot = some i) : (s.permit i).state = .free := by
  simpa using List.find?_some h

/-- How a request is decided leaves the configuration alone. -/
theorem State.decideRequest_fixed (s : State) (holder : Holder) (cls : Nat) (kw draw : Kw) (mayWait : Bool) (wait : Ms)
    (expiry : Option Nat) : (s.decideRequest holder cls kw draw mayWait wait expiry).2.fixed = s.fixed := by
  simp only [State.decideRequest]
  split
  · rfl
  · split
    · rename_i u h
      split at h
      · cases h
      · obtain ⟨rfl, -⟩ := State.claim_some h
        simp
    · repeat' split
      all_goals simp

theorem State.decideRequest_listsExact (s : State) (holder : Holder) (cls : Nat) (kw draw : Kw) (mayWait : Bool)
    (wait : Ms) (expiry : Option Nat) (e₀ : s.listsExact) :
    (s.decideRequest holder cls kw draw mayWait wait expiry).2.listsExact := by
  simp only [State.decideRequest]
  split
  · exact e₀
  · rename_i i hi
    have hb : (s.arrive.burn i).listsExact :=
      State.burn_listsExact _ i (by simpa using State.freeSlot_free hi) (by simpa using e₀)
    split
    · rename_i u h
      split at h
      · cases h
      · obtain ⟨rfl, -⟩ := State.claim_some h
        simp (maxDischargeDepth := 20) [e₀]
    · repeat' split
      all_goals simp (maxDischargeDepth := 20) [e₀, hb]

@[simp] theorem State.shedTo_fixed (s : State) (st : ShedState) : (s.shedTo st).fixed = s.fixed := by
  simp only [State.shedTo]
  repeat' split
  all_goals simp_all [foldl_fixed]

@[simp] theorem State.shedTo_listsExact (s : State) (st : ShedState) (e₀ : s.listsExact) : (s.shedTo st).listsExact := by
  simp only [State.shedTo]
  repeat' split
  all_goals simp_all +contextual (maxDischargeDepth := 20) [foldl_listsExact]

@[simp] theorem State.select_fixed (s : State) : s.select.fixed = s.fixed := by
  simp only [State.select]
  repeat' split
  all_goals simp_all [foldl_fixed]

@[simp] theorem State.select_listsExact (s : State) (e₀ : s.listsExact) : s.select.listsExact := by
  simp only [State.select]
  repeat' split
  all_goals simp_all +contextual (maxDischargeDepth := 20) [foldl_listsExact]

@[simp] theorem State.judgeCandidate_fixed (s : State) : s.judgeCandidate.fixed = s.fixed := by
  simp only [State.judgeCandidate]
  repeat' split
  all_goals simp_all [foldl_fixed]

@[simp] theorem State.judgeCandidate_listsExact (s : State) (e₀ : s.listsExact) : s.judgeCandidate.listsExact := by
  simp only [State.judgeCandidate]
  repeat' split
  all_goals simp_all +contextual (maxDischargeDepth := 20) [foldl_listsExact]

@[simp] theorem State.judgeShed_fixed (s : State) : s.judgeShed.fixed = s.fixed := by
  simp only [State.judgeShed]
  repeat' split
  all_goals simp_all [foldl_fixed]

@[simp] theorem State.judgeShed_listsExact (s : State) (e₀ : s.listsExact) : s.judgeShed.listsExact := by
  simp only [State.judgeShed]
  repeat' split
  all_goals simp_all +contextual (maxDischargeDepth := 20) [foldl_listsExact]

@[simp] theorem State.reselect_fixed (s : State) : s.reselect.fixed = s.fixed := by
  simp only [State.reselect]
  repeat' split
  all_goals simp_all [foldl_fixed]

@[simp] theorem State.reselect_listsExact (s : State) (e₀ : s.listsExact) : s.reselect.listsExact := by
  simp only [State.reselect]
  repeat' split
  all_goals simp_all +contextual (maxDischargeDepth := 20) [foldl_listsExact]

@[simp] theorem State.openUnlessHeld_fixed (s : State) (f : FeederNo) : (s.openUnlessHeld f).fixed = s.fixed := by
  simp only [State.openUnlessHeld]
  repeat' split
  all_goals simp_all [foldl_fixed]

@[simp] theorem State.openUnlessHeld_listsExact (s : State) (f : FeederNo) (e₀ : s.listsExact) : (s.openUnlessHeld f).listsExact := by
  simp only [State.openUnlessHeld]
  repeat' split
  all_goals simp_all +contextual (maxDischargeDepth := 20) [foldl_listsExact]

@[simp] theorem State.noteFeeder_fixed (s : State) (f : FeederNo) (r : FeederReport) : (s.noteFeeder f r).fixed = s.fixed := by
  simp only [State.noteFeeder]
  repeat' split
  all_goals simp_all [foldl_fixed]

@[simp] theorem State.noteFeeder_listsExact (s : State) (f : FeederNo) (r : FeederReport) (e₀ : s.listsExact) : (s.noteFeeder f r).listsExact := by
  simp only [State.noteFeeder]
  repeat' split
  all_goals simp_all +contextual (maxDischargeDepth := 20) [foldl_listsExact]

@[simp] theorem State.answerClosed_fixed (s : State) (f : FeederNo) (r : FeederReport) : (s.answerClosed f r).fixed = s.fixed := by
  simp only [State.answerClosed]
  repeat' split
  all_goals simp_all [foldl_fixed]

@[simp] theorem State.answerClosed_listsExact (s : State) (f : FeederNo) (r : FeederReport) (e₀ : s.listsExact) : (s.answerClosed f r).listsExact := by
  simp only [State.answerClosed]
  repeat' split
  all_goals simp_all +contextual (maxDischargeDepth := 20) [foldl_listsExact]

@[simp] theorem State.setLocal_fixed (s : State) (f : FeederNo) : (s.setLocal f).fixed = s.fixed := by
  simp only [State.setLocal]
  repeat' split
  all_goals simp_all [foldl_fixed]

@[simp] theorem State.setLocal_listsExact (s : State) (f : FeederNo) (e₀ : s.listsExact) : (s.setLocal f).listsExact := by
  simp only [State.setLocal]
  repeat' split
  all_goals simp_all +contextual (maxDischargeDepth := 20) [foldl_listsExact]

@[simp] theorem State.revocationRefused_fixed (s : State) (i : Slot) : (s.revocationRefused i).fixed = s.fixed := by
  simp only [State.revocationRefused]
  repeat' split
  all_goals simp_all [foldl_fixed]

@[simp] theorem State.revocationRefused_listsExact (s : State) (i : Slot) (e₀ : s.listsExact) : (s.revocationRefused i).listsExact := by
  simp only [State.revocationRefused]
  repeat' split
  all_goals simp_all +contextual (maxDischargeDepth := 20) [foldl_listsExact]

@[simp] theorem State.openRefused_fixed (s : State) (f : FeederNo) (o : Order) (r : FeederReport) : (s.openRefused f o r).fixed = s.fixed := by
  simp only [State.openRefused]
  repeat' split
  all_goals simp_all [foldl_fixed]

@[simp] theorem State.openRefused_listsExact (s : State) (f : FeederNo) (o : Order) (r : FeederReport) (e₀ : s.listsExact) : (s.openRefused f o r).listsExact := by
  simp only [State.openRefused]
  repeat' split
  all_goals simp_all +contextual (maxDischargeDepth := 20) [foldl_listsExact]

@[simp] theorem State.reselectIf_fixed (s : State) (f : FeederNo) (w o : Bool) : (s.reselectIf f w o).fixed = s.fixed := by
  simp only [State.reselectIf]
  repeat' split
  all_goals simp_all [foldl_fixed]

@[simp] theorem State.reselectIf_listsExact (s : State) (f : FeederNo) (w o : Bool) (e₀ : s.listsExact) : (s.reselectIf f w o).listsExact := by
  simp only [State.reselectIf]
  repeat' split
  all_goals simp_all +contextual (maxDischargeDepth := 20) [foldl_listsExact]

@[simp] theorem State.seReport_fixed (s : State) (f : FeederNo) (r : FeederReport) : (s.seReport f r).fixed = s.fixed := by
  simp only [State.seReport]
  repeat' split
  all_goals simp_all [foldl_fixed]

@[simp] theorem State.seReport_listsExact (s : State) (f : FeederNo) (r : FeederReport) (e₀ : s.listsExact) : (s.seReport f r).listsExact := by
  simp only [State.seReport]
  repeat' split
  all_goals simp_all +contextual (maxDischargeDepth := 20) [foldl_listsExact]

@[simp] theorem State.seAnswer_fixed (s : State) (f : FeederNo) (r : FeederReport) (a : Answered) : (s.seAnswer f r a).fixed = s.fixed := by
  simp only [State.seAnswer]
  repeat' split
  all_goals simp_all [foldl_fixed]

@[simp] theorem State.seAnswer_listsExact (s : State) (f : FeederNo) (r : FeederReport) (a : Answered) (e₀ : s.listsExact) : (s.seAnswer f r a).listsExact := by
  simp only [State.seAnswer]
  repeat' split
  all_goals simp_all +contextual (maxDischargeDepth := 20) [foldl_listsExact]

@[simp] theorem State.seReply_fixed (s : State) (d : FeederDelivery) : (s.seReply d).fixed = s.fixed := by
  simp only [State.seReply]
  repeat' split
  all_goals simp_all [foldl_fixed]

@[simp] theorem State.seReply_listsExact (s : State) (d : FeederDelivery) (e₀ : s.listsExact) : (s.seReply d).listsExact := by
  simp only [State.seReply]
  repeat' split
  all_goals simp_all +contextual (maxDischargeDepth := 20) [foldl_listsExact]

@[simp] theorem State.seContact_fixed (s : State) (f : FeederNo) (now : Contact) : (s.seContact f now).fixed = s.fixed := by
  simp only [State.seContact]
  repeat' split
  all_goals simp_all [foldl_fixed]

@[simp] theorem State.seContact_listsExact (s : State) (f : FeederNo) (now : Contact) (e₀ : s.listsExact) : (s.seContact f now).listsExact := by
  simp only [State.seContact]
  repeat' split
  all_goals simp_all +contextual (maxDischargeDepth := 20) [foldl_listsExact]

@[simp] theorem State.seJudges_fixed (s : State) : (s.seJudges).fixed = s.fixed := by
  simp only [State.seJudges]
  repeat' split
  all_goals simp_all [foldl_fixed]

@[simp] theorem State.seJudges_listsExact (s : State) (e₀ : s.listsExact) : (s.seJudges).listsExact := by
  simp only [State.seJudges]
  repeat' split
  all_goals simp_all +contextual (maxDischargeDepth := 20) [foldl_listsExact]

@[simp] theorem State.dropNaming_fixed (s : State) : s.dropNaming.fixed = s.fixed := rfl

@[simp] theorem State.dropNaming_listsExact (s : State) (e₀ : s.listsExact) : s.dropNaming.listsExact := e₀

@[simp] theorem State.seDark_fixed (s : State) : s.seDark.fixed = s.fixed := by
  simp only [State.seDark]
  rw [foldl_fixed _ (fun _ _ => by split <;> simp), State.shedTo_fixed, State.dropNaming_fixed]

@[simp] theorem State.seDark_listsExact (s : State) (e₀ : s.listsExact) : s.seDark.listsExact := by
  refine foldl_listsExact _ (fun _ _ h => by split <;> simp [h]) _ _ ?_
  exact State.shedTo_listsExact _ .idle (State.dropNaming_listsExact s e₀)

@[simp] theorem State.revokeFailed_fixed (s : State) (i : Slot) : (s.revokeFailed i).fixed = s.fixed := by
  simp only [State.revokeFailed]
  repeat' split
  all_goals simp_all [foldl_fixed]

@[simp] theorem State.revokeFailed_listsExact (s : State) (i : Slot) (e₀ : s.listsExact) : (s.revokeFailed i).listsExact := by
  simp only [State.revokeFailed]
  repeat' split
  all_goals simp_all +contextual (maxDischargeDepth := 20) [foldl_listsExact]

@[simp] theorem State.namingEnded_fixed (s : State) : s.namingEnded.fixed = s.fixed := by
  simp only [State.namingEnded]
  repeat' split
  all_goals simp_all [foldl_fixed]

@[simp] theorem State.namingEnded_listsExact (s : State) (e₀ : s.listsExact) : s.namingEnded.listsExact := by
  simp only [State.namingEnded]
  repeat' split
  all_goals simp_all +contextual (maxDischargeDepth := 20) [foldl_listsExact]

/-! ## Admission -/

/-- The slot that an adoption takes, and the state in which it is taken (R43). -/
theorem State.adopt_made {s t : State} {i : Slot} {p : Permit} {f : FeederNo} {q : Slot → Permit}
    (h : (match s.permitOf f with
      | some i => some (i, s.permit i, s)
      | none => s.freeSlot.map fun i => (i, q i, s.arrive)) = some (i, p, t)) : t = s ∨ t = s.arrive := by
  split at h
  · simp_all
  · cases hs : s.freeSlot with
    | none => simp [hs] at h
    | some j => simp [hs] at h; exact Or.inr h.2.2.symm

@[simp] theorem State.adopt_fixed (s : State) (f : FeederNo) (draw : Kw) (quiet : Bool) :
    (s.adopt f draw quiet).fixed = s.fixed := by
  simp only [State.adopt]
  split
  · rfl
  · rename_i h
    rcases State.adopt_made h with rfl | rfl <;> split <;> simp

@[simp] theorem State.adopt_listsExact (s : State) (f : FeederNo) (draw : Kw) (quiet : Bool) (e₀ : s.listsExact) :
    (s.adopt f draw quiet).listsExact := by
  simp only [State.adopt]
  split
  · exact e₀
  · rename_i h
    rcases State.adopt_made h with rfl | rfl <;> split <;> simp [e₀]

@[simp] theorem State.withdrawOpen_fixed (s : State) (f : FeederNo) : (s.withdrawOpen f).fixed = s.fixed := by
  simp only [State.withdrawOpen]
  repeat' split
  all_goals simp_all [foldl_fixed]

@[simp] theorem State.withdrawOpen_listsExact (s : State) (f : FeederNo) (e₀ : s.listsExact) : (s.withdrawOpen f).listsExact := by
  simp only [State.withdrawOpen]
  repeat' split
  all_goals simp_all +contextual (maxDischargeDepth := 20) [foldl_listsExact]

@[simp] theorem State.confirmShed_fixed (s : State) (i : Slot) (f : FeederNo) (draw : Kw) : (s.confirmShed i f draw).fixed = s.fixed := by
  simp only [State.confirmShed]
  repeat' split
  all_goals simp_all [foldl_fixed]

@[simp] theorem State.confirmShed_listsExact (s : State) (i : Slot) (f : FeederNo) (draw : Kw) (e₀ : s.listsExact) : (s.confirmShed i f draw).listsExact := by
  simp only [State.confirmShed]
  repeat' split
  all_goals simp_all +contextual (maxDischargeDepth := 20) [foldl_listsExact]

@[simp] theorem State.reportPermit_fixed (s : State) (f : FeederNo) (i : Slot) (closed : Bool) (draw : Kw) (quiet : Bool) :
    (s.reportPermit f i closed draw quiet).fixed = s.fixed := by
  delta State.reportPermit
  dsimp only
  repeat' split
  all_goals simp

@[simp] theorem State.reportPermit_listsExact (s : State) (f : FeederNo) (i : Slot) (closed : Bool) (draw : Kw) (quiet : Bool)
    (e₀ : s.listsExact) : (s.reportPermit f i closed draw quiet).listsExact := by
  delta State.reportPermit
  dsimp only
  repeat' split
  all_goals simp (maxDischargeDepth := 20) [e₀]

@[simp] theorem State.aeReport_fixed (s : State) (d : FeederDelivery) : (s.aeReport d).fixed = s.fixed := by
  simp only [State.aeReport]
  repeat' split
  all_goals simp_all [foldl_fixed]

@[simp] theorem State.aeReport_listsExact (s : State) (d : FeederDelivery) (e₀ : s.listsExact) : (s.aeReport d).listsExact := by
  simp only [State.aeReport]
  repeat' split
  all_goals simp_all +contextual (maxDischargeDepth := 20) [foldl_listsExact]

@[simp] theorem State.judgeMark_fixed (s : State) (i : Slot) : (s.judgeMark i).fixed = s.fixed := by
  simp only [State.judgeMark]
  split <;> rfl

@[simp] theorem State.judgeMark_listsExact (s : State) (i : Slot) (e₀ : s.listsExact) : (s.judgeMark i).listsExact := by
  have e₁ := State.setPermit_listsExact s i { s.permit i with overdraw := s.overdrawn (s.permit i) } rfl e₀
  simp only [State.judgeMark]
  split
  · simpa using e₁
  · exact e₁

@[simp] theorem State.countRelease_fixed (s : State) (i : Slot) (kw : Kw) : (s.countRelease i kw).fixed = s.fixed := by
  simp only [State.countRelease]
  repeat' split
  all_goals simp_all [foldl_fixed]

@[simp] theorem State.countRelease_listsExact (s : State) (i : Slot) (kw : Kw) (e₀ : s.listsExact) : (s.countRelease i kw).listsExact := by
  simp only [State.countRelease]
  repeat' split
  all_goals simp_all +contextual (maxDischargeDepth := 20) [foldl_listsExact]

@[simp] theorem State.aeAnswer_fixed (s : State) (a : Answered) : (s.aeAnswer a).1.fixed = s.fixed := by
  simp only [State.aeAnswer]
  repeat' split
  all_goals simp_all [foldl_fixed]

@[simp] theorem State.aeAnswer_listsExact (s : State) (a : Answered) (e₀ : s.listsExact) : (s.aeAnswer a).1.listsExact := by
  simp only [State.aeAnswer]
  repeat' split
  all_goals simp_all +contextual (maxDischargeDepth := 20) [foldl_listsExact]

@[simp] theorem State.retirePermit_fixed (s : State) (i : Slot) : (s.retirePermit i).fixed = s.fixed := by
  simp only [State.retirePermit]
  repeat' split
  all_goals simp

@[simp] theorem State.retirePermit_listsExact (s : State) (i : Slot) (e₀ : s.listsExact) : (s.retirePermit i).listsExact := by
  simp only [State.retirePermit]
  repeat' split
  all_goals simp (maxDischargeDepth := 20) [e₀]

/-- An ADJUST or CHANGE that is taken (R25, R29). -/
theorem State.adjustPermit_ok {s t : State} {i : Slot} {kw : Kw} (h : s.adjustPermit i kw = .ok t) :
    t.fixed = s.fixed ∧ (s.listsExact → t.listsExact) := by
  simp only [State.adjustPermit] at h
  repeat' split at h
  all_goals first | cases h; done | skip
  all_goals
    obtain rfl := Except.ok.inj h
    try obtain ⟨rfl, -⟩ := State.claim_some ‹State.claim _ _ = some _›
    simp +contextual

@[simp] theorem State.deny_fixed (s : State) (f : FeederNo) (h : Option Handle) (r : Reason) : (s.deny f h r).fixed = s.fixed := by
  simp only [State.deny]
  repeat' split
  all_goals simp_all [foldl_fixed]

@[simp] theorem State.deny_listsExact (s : State) (f : FeederNo) (h : Option Handle) (r : Reason) (e₀ : s.listsExact) : (s.deny f h r).listsExact := by
  simp only [State.deny]
  repeat' split
  all_goals simp_all +contextual (maxDischargeDepth := 20) [foldl_listsExact]

@[simp] theorem State.newRequest_fixed (s : State) (f : FeederNo) (draw : Kw) (c : DrawClaim) :
    (s.newRequest f draw c).fixed = s.fixed := by
  have k := fun w => s.decideRequest_fixed (.feeder f) (s.feeder f).cls c.kw draw c.mayWait w none
  simp only [State.newRequest]
  split
  · simp
  · split
    all_goals first | (simp; done) | skip
    split
    · simp
    · have k' := k (secs (if c.waitLimit = 0 then s.setting .defaultWaitLimit else c.waitLimit))
      split
      all_goals
        rename_i h
        rw [h] at k'
        first
          | (simpa using k'; done)
          | (split <;> first | rfl | simpa using k')

@[simp] theorem State.newRequest_listsExact (s : State) (f : FeederNo) (draw : Kw) (c : DrawClaim) (e₀ : s.listsExact) :
    (s.newRequest f draw c).listsExact := by
  have k := fun w => s.decideRequest_listsExact (.feeder f) (s.feeder f).cls c.kw draw c.mayWait w none e₀
  simp only [State.newRequest]
  split
  · simp [e₀]
  · split
    all_goals first | (simp [e₀]; done) | skip
    split
    · simp [e₀]
    · have k' := k (secs (if c.waitLimit = 0 then s.setting .defaultWaitLimit else c.waitLimit))
      split
      all_goals
        rename_i h
        rw [h] at k'
        first
          | exact State.aePlace_listsExact _ _ _ k'
          | (split <;> first | exact e₀ | exact State.aePlace_listsExact _ _ _ k')

@[simp] theorem State.changeRequest_fixed (s : State) (f : FeederNo) (i : Slot) (c : DrawClaim) :
    (s.changeRequest f i c).fixed = s.fixed := by
  simp only [State.changeRequest]
  repeat' split
  all_goals first | (simp; done) | (simp [(State.adjustPermit_ok ‹State.adjustPermit _ _ _ = .ok _›).1])

@[simp] theorem State.changeRequest_listsExact (s : State) (f : FeederNo) (i : Slot) (c : DrawClaim) (e₀ : s.listsExact) :
    (s.changeRequest f i c).listsExact := by
  simp only [State.changeRequest]
  repeat' split
  all_goals first
    | (simp (maxDischargeDepth := 20) [e₀]; done)
    | (simp [(State.adjustPermit_ok ‹State.adjustPermit _ _ _ = .ok _›).2 e₀])

@[simp] theorem State.takeDraw_fixed (s : State) (d : FeederDelivery) (c : DrawClaim) : (s.takeDraw d c).fixed = s.fixed := by
  simp only [State.takeDraw]
  repeat' split
  all_goals simp_all [foldl_fixed]

@[simp] theorem State.takeDraw_listsExact (s : State) (d : FeederDelivery) (c : DrawClaim) (e₀ : s.listsExact) : (s.takeDraw d c).listsExact := by
  simp only [State.takeDraw]
  repeat' split
  all_goals simp_all +contextual (maxDischargeDepth := 20) [foldl_listsExact]

@[simp] theorem State.takeRelease_fixed (before : State) (s : State) (d : FeederDelivery) (h : Handle) : (before.takeRelease s d h).fixed = s.fixed := by
  simp only [State.takeRelease]
  repeat' split
  all_goals simp_all [foldl_fixed]

@[simp] theorem State.takeRelease_listsExact (before : State) (s : State) (d : FeederDelivery) (h : Handle) (e₀ : s.listsExact) : (before.takeRelease s d h).listsExact := by
  simp only [State.takeRelease]
  repeat' split
  all_goals simp_all +contextual (maxDischargeDepth := 20) [foldl_listsExact]

@[simp] theorem State.aeReturns_fixed (s : State) (d : FeederDelivery) : (s.aeReturns d).fixed = s.fixed := by
  simp only [State.aeReturns]
  repeat' split
  all_goals simp_all [foldl_fixed]

@[simp] theorem State.aeReturns_listsExact (s : State) (d : FeederDelivery) (e₀ : s.listsExact) : (s.aeReturns d).listsExact := by
  simp only [State.aeReturns]
  repeat' split
  all_goals simp_all +contextual (maxDischargeDepth := 20) [foldl_listsExact]

theorem State.aeDelivery_fixed (s : State) (d : FeederDelivery) (claim : State → State)
    (hc : ∀ t, (claim t).fixed = t.fixed) : (s.aeDelivery d claim).fixed = s.fixed := by
  simp only [State.aeDelivery]
  repeat' split
  all_goals simp_all (maxDischargeDepth := 20)

theorem State.aeDelivery_listsExact (s : State) (d : FeederDelivery) (claim : State → State)
    (hc : ∀ t, t.listsExact → (claim t).listsExact) (e₀ : s.listsExact) : (s.aeDelivery d claim).listsExact := by
  have h := State.aeReturns_listsExact s d e₀
  simp only [State.aeDelivery]
  generalize s.aeReturns d = c at h ⊢
  repeat' split
  all_goals simp_all +contextual (maxDischargeDepth := 20)

@[simp] theorem State.aeContact_fixed (s : State) (f : FeederNo) (now : Contact) : (s.aeContact f now).fixed = s.fixed := by
  simp only [State.aeContact]
  repeat' split
  all_goals simp_all [foldl_fixed]

@[simp] theorem State.aeContact_listsExact (s : State) (f : FeederNo) (now : Contact) (e₀ : s.listsExact) : (s.aeContact f now).listsExact := by
  simp only [State.aeContact]
  repeat' split
  all_goals simp_all +contextual (maxDischargeDepth := 20) [foldl_listsExact]

@[simp] theorem State.aeGone_fixed (s : State) (o : Order) : (s.aeGone o).fixed = s.fixed := by
  simp only [State.aeGone]
  repeat' split
  all_goals simp_all [foldl_fixed]

@[simp] theorem State.aeGone_listsExact (s : State) (o : Order) (e₀ : s.listsExact) : (s.aeGone o).listsExact := by
  simp only [State.aeGone]
  repeat' split
  all_goals simp_all +contextual (maxDischargeDepth := 20) [foldl_listsExact]

@[simp] theorem State.waitExpired_fixed (s : State) (i : Slot) : (s.waitExpired i).fixed = s.fixed := by
  simp only [State.waitExpired]
  repeat' split
  all_goals simp_all [foldl_fixed]

@[simp] theorem State.waitExpired_listsExact (s : State) (i : Slot) (e₀ : s.listsExact) : (s.waitExpired i).listsExact := by
  simp only [State.waitExpired]
  repeat' split
  all_goals simp_all +contextual (maxDischargeDepth := 20) [foldl_listsExact]

@[simp] theorem State.reservationExpired_fixed (s : State) (i : Slot) : (s.reservationExpired i).fixed = s.fixed := by
  simp only [State.reservationExpired]
  repeat' split
  all_goals simp_all [foldl_fixed]

@[simp] theorem State.reservationExpired_listsExact (s : State) (i : Slot) (e₀ : s.listsExact) : (s.reservationExpired i).listsExact := by
  simp only [State.reservationExpired]
  repeat' split
  all_goals simp_all +contextual (maxDischargeDepth := 20) [foldl_listsExact]

@[simp] theorem State.guardExpired_fixed (s : State) : s.guardExpired.fixed = s.fixed := by
  simp only [State.guardExpired]
  repeat' split
  all_goals simp_all [foldl_fixed]

@[simp] theorem State.guardExpired_listsExact (s : State) (e₀ : s.listsExact) : s.guardExpired.listsExact := by
  simp only [State.guardExpired]
  repeat' split
  all_goals simp_all +contextual (maxDischargeDepth := 20) [foldl_listsExact]

@[simp] theorem State.walkRequest_fixed (s : State) (f : FeederNo) (kw : Kw) : (s.walkRequest f kw).fixed = s.fixed := by
  simp only [State.walkRequest]
  split
  · split
    · rename_i u h
      obtain ⟨rfl, -⟩ := State.claim_some h
      simp
    · simp
  · simp

@[simp] theorem State.walkRequest_listsExact (s : State) (f : FeederNo) (kw : Kw) (e₀ : s.listsExact) :
    (s.walkRequest f kw).listsExact := by
  simp only [State.walkRequest]
  split
  · rename_i i hp hi
    have hb : (s.arrive.burn i).listsExact :=
      State.burn_listsExact _ i (by simpa using State.freeSlot_free hi) (by simpa using e₀)
    split
    · rename_i u h
      obtain ⟨rfl, -⟩ := State.claim_some h
      simp (maxDischargeDepth := 20) [e₀]
    · simpa using hb
  · simpa using e₀

@[simp] theorem State.aeDark_fixed (s : State) : s.aeDark.fixed = s.fixed := by
  simp only [State.aeDark]
  repeat' split
  all_goals simp_all [foldl_fixed]

@[simp] theorem State.aeDark_listsExact (s : State) (e₀ : s.listsExact) : s.aeDark.listsExact := by
  simp only [State.aeDark]
  repeat' split
  all_goals simp_all +contextual (maxDischargeDepth := 20) [foldl_listsExact]

/-! ## Lanes -/

@[simp] theorem State.commit_fixed (s : State) (g : GensetNo) : (s.commit g).fixed = s.fixed := by
  simp only [State.commit]
  repeat' split
  all_goals simp_all [foldl_fixed]

@[simp] theorem State.commit_listsExact (s : State) (g : GensetNo) (e₀ : s.listsExact) : (s.commit g).listsExact := by
  simp only [State.commit]
  repeat' split
  all_goals simp_all +contextual (maxDischargeDepth := 20) [foldl_listsExact]

@[simp] theorem State.gsPlace_fixed (s : State) (g : GensetNo) (o : Order) (urgent : Bool) : (s.gsPlace g o urgent).fixed = s.fixed := by
  simp only [State.gsPlace]
  repeat' split
  all_goals simp_all [foldl_fixed]

@[simp] theorem State.gsPlace_listsExact (s : State) (g : GensetNo) (o : Order) (urgent : Bool) (e₀ : s.listsExact) : (s.gsPlace g o urgent).listsExact := by
  simp only [State.gsPlace]
  repeat' split
  all_goals simp_all +contextual (maxDischargeDepth := 20) [foldl_listsExact]

@[simp] theorem State.tellLead_fixed (s : State) (r : Run) (o : LeadOutcome) : (s.tellLead r o).fixed = s.fixed := by
  simp only [State.tellLead]
  repeat' split
  all_goals simp_all [foldl_fixed]

@[simp] theorem State.tellLead_listsExact (s : State) (r : Run) (o : LeadOutcome) (e₀ : s.listsExact) : (s.tellLead r o).listsExact := by
  simp only [State.tellLead]
  repeat' split
  all_goals simp_all +contextual (maxDischargeDepth := 20) [foldl_listsExact]

@[simp] theorem State.failRun_fixed (s : State) (lane : LaneId) (cause : FailCause) : (s.failRun lane cause).fixed = s.fixed := by
  simp only [State.failRun]
  repeat' split
  all_goals simp_all [foldl_fixed]

@[simp] theorem State.failRun_listsExact (s : State) (lane : LaneId) (cause : FailCause) (e₀ : s.listsExact) : (s.failRun lane cause).listsExact := by
  simp only [State.failRun]
  repeat' split
  all_goals simp_all +contextual (maxDischargeDepth := 20) [foldl_listsExact]

@[simp] theorem State.endRun_fixed (s : State) (lane : LaneId) (r : Run) : (s.endRun lane r).fixed = s.fixed := by
  simp only [State.endRun]
  repeat' split
  all_goals simp_all [foldl_fixed]

@[simp] theorem State.endRun_listsExact (s : State) (lane : LaneId) (r : Run) (e₀ : s.listsExact) : (s.endRun lane r).listsExact := by
  simp only [State.endRun]
  repeat' split
  all_goals simp_all +contextual (maxDischargeDepth := 20) [foldl_listsExact]

@[simp] theorem State.breakerClosed_fixed (s : State) (r : Run) : (s.breakerClosed r).fixed = s.fixed := by
  simp only [State.breakerClosed]
  repeat' split
  all_goals simp_all [foldl_fixed]

@[simp] theorem State.breakerClosed_listsExact (s : State) (r : Run) (e₀ : s.listsExact) : (s.breakerClosed r).listsExact := by
  simp only [State.breakerClosed]
  repeat' split
  all_goals simp_all +contextual (maxDischargeDepth := 20) [foldl_listsExact]

@[simp] theorem State.withdrawStep_fixed (s : State) (r : Run) : (s.withdrawStep r).fixed = s.fixed := by
  simp only [State.withdrawStep]
  repeat' split
  all_goals simp_all [foldl_fixed]

@[simp] theorem State.withdrawStep_listsExact (s : State) (r : Run) (e₀ : s.listsExact) : (s.withdrawStep r).listsExact := by
  simp only [State.withdrawStep]
  repeat' split
  all_goals simp_all +contextual (maxDischargeDepth := 20) [foldl_listsExact]

@[simp] theorem State.completeStep_fixed (s : State) (lane : LaneId) (r : Run) (k : StepKind) : (s.completeStep lane r k).1.fixed = s.fixed := by
  simp only [State.completeStep]
  repeat' split
  all_goals simp_all [foldl_fixed]

@[simp] theorem State.completeStep_listsExact (s : State) (lane : LaneId) (r : Run) (k : StepKind) (e₀ : s.listsExact) : (s.completeStep lane r k).1.listsExact := by
  simp only [State.completeStep]
  repeat' split
  all_goals simp_all +contextual (maxDischargeDepth := 20) [foldl_listsExact]

@[simp] theorem State.failing_fixed (s : State) (lane : LaneId) (cause : FailCause) : (s.failing lane cause).1.fixed = s.fixed := by
  simp only [State.failing]
  repeat' split
  all_goals simp_all [foldl_fixed]

@[simp] theorem State.failing_listsExact (s : State) (lane : LaneId) (cause : FailCause) (e₀ : s.listsExact) : (s.failing lane cause).1.listsExact := by
  simp only [State.failing]
  repeat' split
  all_goals simp_all +contextual (maxDischargeDepth := 20) [foldl_listsExact]

theorem State.orderClose_kept (s : State) (lane : LaneId) (r : Run) (k : StepKind) (o : Order) :
    (s.orderClose lane r k o).1.fixed = s.fixed ∧ (s.listsExact → (s.orderClose lane r k o).1.listsExact) := by
  simp only [State.orderClose]
  split <;> simp +contextual

@[simp] theorem State.orderClose_fixed (s : State) (lane : LaneId) (r : Run) (k : StepKind) (o : Order) :
    (s.orderClose lane r k o).1.fixed = s.fixed := (s.orderClose_kept lane r k o).1

@[simp] theorem State.orderClose_listsExact (s : State) (lane : LaneId) (r : Run) (k : StepKind) (o : Order)
    (e₀ : s.listsExact) : (s.orderClose lane r k o).1.listsExact := (s.orderClose_kept lane r k o).2 e₀

@[simp] theorem State.granted_fixed (s : State) (lane : LaneId) (r : Run) : (s.granted lane r).1.fixed = s.fixed := by
  simp only [State.granted]
  repeat' split
  all_goals simp_all [foldl_fixed]

@[simp] theorem State.granted_listsExact (s : State) (lane : LaneId) (r : Run) (e₀ : s.listsExact) : (s.granted lane r).1.listsExact := by
  simp only [State.granted]
  repeat' split
  all_goals simp_all +contextual (maxDischargeDepth := 20) [foldl_listsExact]

@[simp] theorem State.askToken_fixed (s : State) (lane : LaneId) (r : Run) : (s.askToken lane r).1.fixed = s.fixed := by
  simp only [State.askToken]
  repeat' split
  all_goals simp_all [foldl_fixed]

@[simp] theorem State.askToken_listsExact (s : State) (lane : LaneId) (r : Run) (e₀ : s.listsExact) : (s.askToken lane r).1.listsExact := by
  simp only [State.askToken]
  repeat' split
  all_goals simp_all +contextual (maxDischargeDepth := 20) [foldl_listsExact]

@[simp] theorem State.beginStep_fixed (s : State) (lane : LaneId) (r : Run) : (s.beginStep lane r).1.fixed = s.fixed := by
  simp only [State.beginStep]
  repeat' split
  all_goals simp_all [foldl_fixed]

@[simp] theorem State.beginStep_listsExact (s : State) (lane : LaneId) (r : Run) (e₀ : s.listsExact) : (s.beginStep lane r).1.listsExact := by
  simp only [State.beginStep]
  repeat' split
  all_goals simp_all +contextual (maxDischargeDepth := 20) [foldl_listsExact]

theorem State.work_fixed (s : State) (w : Work) : (s.work w).1.fixed = s.fixed := by
  cases w <;> simp only [State.work] <;> repeat' split
  all_goals simp

theorem State.work_listsExact (s : State) (w : Work) (e₀ : s.listsExact) : (s.work w).1.listsExact := by
  cases w <;> simp only [State.work] <;> repeat' split
  all_goals simp (maxDischargeDepth := 20) [e₀]

theorem State.pump_fixed (n : Nat) (ws : List Work) (s : State) : (State.pump n ws s).fixed = s.fixed := by
  induction n generalizing ws s with
  | zero => rfl
  | succ n ih => cases ws with
    | nil => rfl
    | cons w ws => simp [State.pump, ih, State.work_fixed]

theorem State.pump_listsExact (n : Nat) (ws : List Work) (s : State) (e₀ : s.listsExact) :
    (State.pump n ws s).listsExact := by
  induction n generalizing ws s with
  | zero => exact e₀
  | succ n ih => cases ws with
    | nil => exact e₀
    | cons w ws => exact ih _ _ (State.work_listsExact s w e₀)

@[simp] theorem State.finish_fixed (r : State × List Work) : (State.finish r).fixed = r.1.fixed := State.pump_fixed _ _ _

@[simp] theorem State.finish_listsExact (r : State × List Work) (e₀ : r.1.listsExact) : (State.finish r).listsExact :=
  State.pump_listsExact _ _ _ e₀

@[simp] theorem State.takeLane_fixed (s : State) (lane : LaneId) (g : GensetNo) (origin : Origin) :
    (s.takeLane lane g origin).fixed = s.fixed := by
  simp [State.takeLane]

@[simp] theorem State.takeLane_listsExact (s : State) (lane : LaneId) (g : GensetNo) (origin : Origin) (e₀ : s.listsExact) :
    (s.takeLane lane g origin).listsExact := by
  simp [State.takeLane, e₀]

@[simp] theorem State.laneReport_fixed (s : State) (lane : LaneId) : (s.laneReport lane).fixed = s.fixed := by
  simp only [State.laneReport]
  repeat' split
  all_goals simp_all [foldl_fixed]

@[simp] theorem State.laneReport_listsExact (s : State) (lane : LaneId) (e₀ : s.listsExact) : (s.laneReport lane).listsExact := by
  simp only [State.laneReport]
  repeat' split
  all_goals simp_all +contextual (maxDischargeDepth := 20) [foldl_listsExact]

@[simp] theorem State.laneRefusal_fixed (s : State) (lane : LaneId) (o : Order) : (s.laneRefusal lane o).fixed = s.fixed := by
  simp only [State.laneRefusal]
  repeat' split
  all_goals simp_all [foldl_fixed]

@[simp] theorem State.laneRefusal_listsExact (s : State) (lane : LaneId) (o : Order) (e₀ : s.listsExact) : (s.laneRefusal lane o).listsExact := by
  simp only [State.laneRefusal]
  repeat' split
  all_goals simp_all +contextual (maxDischargeDepth := 20) [foldl_listsExact]

@[simp] theorem State.stepExpired_fixed (s : State) (lane : LaneId) : (s.stepExpired lane).fixed = s.fixed := by
  simp only [State.stepExpired]
  repeat' split
  all_goals simp_all [foldl_fixed]

@[simp] theorem State.stepExpired_listsExact (s : State) (lane : LaneId) (e₀ : s.listsExact) : (s.stepExpired lane).listsExact := by
  simp only [State.stepExpired]
  repeat' split
  all_goals simp_all +contextual (maxDischargeDepth := 20) [foldl_listsExact]

@[simp] theorem State.readyExpired_fixed (s : State) (lane : LaneId) : (s.readyExpired lane).fixed = s.fixed := by
  simp only [State.readyExpired]
  repeat' split
  all_goals simp_all [foldl_fixed]

@[simp] theorem State.readyExpired_listsExact (s : State) (lane : LaneId) (e₀ : s.listsExact) : (s.readyExpired lane).listsExact := by
  simp only [State.readyExpired]
  repeat' split
  all_goals simp_all +contextual (maxDischargeDepth := 20) [foldl_listsExact]

@[simp] theorem State.stationAbort_fixed (s : State) (lane : LaneId) : (s.stationAbort lane).fixed = s.fixed := by
  simp only [State.stationAbort]
  repeat' split
  all_goals simp_all [foldl_fixed]

@[simp] theorem State.stationAbort_listsExact (s : State) (lane : LaneId) (e₀ : s.listsExact) : (s.stationAbort lane).listsExact := by
  simp only [State.stationAbort]
  repeat' split
  all_goals simp_all +contextual (maxDischargeDepth := 20) [foldl_listsExact]

/-! ## Gensets -/

theorem State.append_fixed (wanted : Kw) (l : List GensetNo) (s : State) : (State.append wanted l s).fixed = s.fixed := by
  induction l generalizing s with
  | nil => rfl
  | cons g l ih => simp only [State.append]; split <;> simp [ih]

theorem State.append_listsExact (wanted : Kw) (l : List GensetNo) (s : State) (e₀ : s.listsExact) :
    (State.append wanted l s).listsExact := by
  induction l generalizing s with
  | nil => exact e₀
  | cons g l ih =>
    simp only [State.append]
    split
    · exact ih _ e₀
    · exact e₀

theorem State.trim_fixed (wanted : Kw) (n : Nat) (s : State) : (State.trim wanted n s).fixed = s.fixed := by
  induction n generalizing s with
  | zero => rfl
  | succ n ih =>
    simp only [State.trim]
    repeat' split
    all_goals simp [ih]

theorem State.trim_listsExact (wanted : Kw) (n : Nat) (s : State) (e₀ : s.listsExact) :
    (State.trim wanted n s).listsExact := by
  induction n generalizing s with
  | zero => exact e₀
  | succ n ih =>
    simp only [State.trim]
    repeat' split
    all_goals first | exact e₀ | exact ih _ (by simpa using e₀)

@[simp] theorem State.judgeDemand_fixed (s : State) : s.judgeDemand.fixed = s.fixed := by
  simp only [State.judgeDemand]
  repeat' split
  all_goals simp [State.append_fixed, State.trim_fixed]

@[simp] theorem State.judgeDemand_listsExact (s : State) (e₀ : s.listsExact) : s.judgeDemand.listsExact := by
  simp only [State.judgeDemand]
  repeat' split
  all_goals simp [State.append_listsExact, State.trim_listsExact, e₀]

@[simp] theorem State.takeHead_fixed (s : State) (lane : LaneId) : (s.takeHead lane).fixed = s.fixed := by
  simp only [State.takeHead]
  repeat' split
  all_goals simp_all [foldl_fixed]

@[simp] theorem State.takeHead_listsExact (s : State) (lane : LaneId) (e₀ : s.listsExact) : (s.takeHead lane).listsExact := by
  simp only [State.takeHead]
  repeat' split
  all_goals simp_all +contextual (maxDischargeDepth := 20) [foldl_listsExact]

@[simp] theorem State.takeUp_fixed (s : State) : s.takeUp.fixed = s.fixed := by
  simp only [State.takeUp]
  repeat' split
  all_goals simp_all [foldl_fixed]

@[simp] theorem State.takeUp_listsExact (s : State) (e₀ : s.listsExact) : s.takeUp.listsExact := by
  simp only [State.takeUp]
  repeat' split
  all_goals simp_all +contextual (maxDischargeDepth := 20) [foldl_listsExact]

@[simp] theorem State.judgeStop_fixed (s : State) : s.judgeStop.fixed = s.fixed := by
  simp only [State.judgeStop]
  repeat' split
  all_goals simp_all [foldl_fixed]

@[simp] theorem State.judgeStop_listsExact (s : State) (e₀ : s.listsExact) : s.judgeStop.listsExact := by
  simp only [State.judgeStop]
  repeat' split
  all_goals simp_all +contextual (maxDischargeDepth := 20) [foldl_listsExact]

@[simp] theorem State.decideStop_fixed (s : State) (g : GensetNo) : (s.decideStop g).fixed = s.fixed := by
  simp only [State.decideStop]
  repeat' split
  all_goals simp_all [foldl_fixed]

@[simp] theorem State.decideStop_listsExact (s : State) (g : GensetNo) (e₀ : s.listsExact) : (s.decideStop g).listsExact := by
  simp only [State.decideStop]
  repeat' split
  all_goals simp_all +contextual (maxDischargeDepth := 20) [foldl_listsExact]

@[simp] theorem State.enterShutting_fixed (s : State) (g : GensetNo) (urgent : Bool) : (s.enterShutting g urgent).fixed = s.fixed := by
  simp only [State.enterShutting]
  repeat' split
  all_goals simp_all [foldl_fixed]

@[simp] theorem State.enterShutting_listsExact (s : State) (g : GensetNo) (urgent : Bool) (e₀ : s.listsExact) : (s.enterShutting g urgent).listsExact := by
  simp only [State.enterShutting]
  repeat' split
  all_goals simp_all +contextual (maxDischargeDepth := 20) [foldl_listsExact]

@[simp] theorem State.enterCooling_fixed (s : State) (g : GensetNo) : (s.enterCooling g).fixed = s.fixed := by
  simp only [State.enterCooling]
  repeat' split
  all_goals simp_all [foldl_fixed]

@[simp] theorem State.enterCooling_listsExact (s : State) (g : GensetNo) (e₀ : s.listsExact) : (s.enterCooling g).listsExact := by
  simp only [State.enterCooling]
  repeat' split
  all_goals simp_all +contextual (maxDischargeDepth := 20) [foldl_listsExact]

@[simp] theorem State.enterOpening_fixed (s : State) (g : GensetNo) : (s.enterOpening g).fixed = s.fixed := by
  simp only [State.enterOpening]
  repeat' split
  all_goals simp_all [foldl_fixed]

@[simp] theorem State.enterOpening_listsExact (s : State) (g : GensetNo) (e₀ : s.listsExact) : (s.enterOpening g).listsExact := by
  simp only [State.enterOpening]
  repeat' split
  all_goals simp_all +contextual (maxDischargeDepth := 20) [foldl_listsExact]

@[simp] theorem State.stopReport_fixed (s : State) (g : GensetNo) : (s.stopReport g).fixed = s.fixed := by
  simp only [State.stopReport]
  repeat' split
  all_goals simp_all [foldl_fixed]

@[simp] theorem State.stopReport_listsExact (s : State) (g : GensetNo) (e₀ : s.listsExact) : (s.stopReport g).listsExact := by
  simp only [State.stopReport]
  repeat' split
  all_goals simp_all +contextual (maxDischargeDepth := 20) [foldl_listsExact]

@[simp] theorem State.phaseEnds_fixed (s : State) (g : GensetNo) : (s.phaseEnds g).fixed = s.fixed := by
  simp only [State.phaseEnds]
  repeat' split
  all_goals simp_all [foldl_fixed]

@[simp] theorem State.phaseEnds_listsExact (s : State) (g : GensetNo) (e₀ : s.listsExact) : (s.phaseEnds g).listsExact := by
  simp only [State.phaseEnds]
  repeat' split
  all_goals simp_all +contextual (maxDischargeDepth := 20) [foldl_listsExact]

theorem State.serveStarts_kept (n : Nat) (due : Bool) (s : State) :
    (State.serveStarts n due s).1.fixed = s.fixed ∧ (s.listsExact → (State.serveStarts n due s).1.listsExact) := by
  induction n generalizing due s with
  | zero => exact ⟨rfl, id⟩
  | succ n ih =>
    have hu : (if due then s.judgeDemand else s).fixed = s.fixed := by split <;> simp
    have hv : s.listsExact → (if due then s.judgeDemand else s).listsExact := by intro h; split <;> simp [h]
    simp only [State.serveStarts]
    generalize (if due then s.judgeDemand else s) = u at hu hv ⊢
    by_cases c : u.gs.queue.length = ((u.takeHead .a).takeHead .b).gs.queue.length
    · simp only [c, if_true]
      exact ⟨hu, hv⟩
    · simp only [c, if_false]
      exact ⟨by rw [(ih _ _).1]; simp [hu], fun h => (ih _ _).2 (by simp (maxDischargeDepth := 20) [hv h])⟩

@[simp] theorem State.settleGensets_fixed (before : State) (demand stop : Bool) (s : State) :
    (State.settleGensets before demand stop s).fixed = s.fixed := by
  simp only [State.settleGensets]
  repeat' split
  all_goals simp [(State.serveStarts_kept _ _ _).1]

@[simp] theorem State.settleGensets_listsExact (before : State) (demand stop : Bool) (s : State) (e₀ : s.listsExact) :
    (State.settleGensets before demand stop s).listsExact := by
  simp only [State.settleGensets]
  repeat' split
  all_goals simp [(State.serveStarts_kept _ _ _).2, e₀]

@[simp] theorem State.settleUnknown_fixed (s : State) (g : GensetNo) : (s.settleUnknown g).fixed = s.fixed := by
  simp only [State.settleUnknown]
  repeat' split
  all_goals simp_all [foldl_fixed]

@[simp] theorem State.settleUnknown_listsExact (s : State) (g : GensetNo) (e₀ : s.listsExact) : (s.settleUnknown g).listsExact := by
  simp only [State.settleUnknown]
  repeat' split
  all_goals simp_all +contextual (maxDischargeDepth := 20) [foldl_listsExact]

@[simp] theorem State.onlineTrip_fixed (s : State) (g : GensetNo) : (s.onlineTrip g).fixed = s.fixed := by
  simp only [State.onlineTrip]
  repeat' split
  all_goals simp_all [foldl_fixed]

@[simp] theorem State.onlineTrip_listsExact (s : State) (g : GensetNo) (e₀ : s.listsExact) : (s.onlineTrip g).listsExact := by
  simp only [State.onlineTrip]
  repeat' split
  all_goals simp_all +contextual (maxDischargeDepth := 20) [foldl_listsExact]

@[simp] theorem State.gsReport_fixed (s : State) (g : GensetNo) (report : GensetReport) : (s.gsReport g report).fixed = s.fixed := by
  simp only [State.gsReport]
  repeat' split
  all_goals simp_all [foldl_fixed]

@[simp] theorem State.gsReport_listsExact (s : State) (g : GensetNo) (report : GensetReport) (e₀ : s.listsExact) : (s.gsReport g report).listsExact := by
  simp only [State.gsReport]
  repeat' split
  all_goals simp_all +contextual (maxDischargeDepth := 20) [foldl_listsExact]

@[simp] theorem State.stopAnswered_fixed (s : State) (g : GensetNo) (accepted : Bool) :
    (s.stopAnswered g accepted).fixed = s.fixed := by
  simp only [State.stopAnswered]
  repeat' split
  all_goals simp_all

@[simp] theorem State.stopAnswered_listsExact (s : State) (g : GensetNo) (accepted : Bool) (e₀ : s.listsExact) :
    (s.stopAnswered g accepted).listsExact := by
  simp only [State.stopAnswered]
  repeat' split
  all_goals simp_all

@[simp] theorem State.gsAnswer_fixed (s : State) (g : GensetNo) (a : Answered) : (s.gsAnswer g a).fixed = s.fixed := by
  simp only [State.gsAnswer]
  repeat' split
  all_goals simp_all [foldl_fixed]

@[simp] theorem State.gsAnswer_listsExact (s : State) (g : GensetNo) (a : Answered) (e₀ : s.listsExact) : (s.gsAnswer g a).listsExact := by
  simp only [State.gsAnswer]
  repeat' split
  all_goals simp_all +contextual (maxDischargeDepth := 20) [foldl_listsExact]

@[simp] theorem State.gsReply_fixed (s : State) (d : GensetDelivery) : (s.gsReply d).fixed = s.fixed := by
  simp only [State.gsReply]
  repeat' split
  all_goals simp_all [foldl_fixed]

@[simp] theorem State.gsReply_listsExact (s : State) (d : GensetDelivery) (e₀ : s.listsExact) : (s.gsReply d).listsExact := by
  simp only [State.gsReply]
  repeat' split
  all_goals simp_all +contextual (maxDischargeDepth := 20) [foldl_listsExact]

@[simp] theorem State.gsLost_fixed (s : State) (g : GensetNo) (now : Contact) : (s.gsLost g now).fixed = s.fixed := by
  simp only [State.gsLost]
  repeat' split
  all_goals simp_all [foldl_fixed]

@[simp] theorem State.gsLost_listsExact (s : State) (g : GensetNo) (now : Contact) (e₀ : s.listsExact) : (s.gsLost g now).listsExact := by
  simp only [State.gsLost]
  repeat' split
  all_goals simp_all +contextual (maxDischargeDepth := 20) [foldl_listsExact]

@[simp] theorem State.minRunExpired_fixed (s : State) (g : GensetNo) : (s.minRunExpired g).fixed = s.fixed := by
  simp only [State.minRunExpired]
  repeat' split
  all_goals simp_all [foldl_fixed]

@[simp] theorem State.minRunExpired_listsExact (s : State) (g : GensetNo) (e₀ : s.listsExact) : (s.minRunExpired g).listsExact := by
  simp only [State.minRunExpired]
  repeat' split
  all_goals simp_all +contextual (maxDischargeDepth := 20) [foldl_listsExact]

@[simp] theorem State.restExpired_fixed (s : State) (g : GensetNo) : (s.restExpired g).fixed = s.fixed := by
  simp only [State.restExpired]
  repeat' split
  all_goals simp_all [foldl_fixed]

@[simp] theorem State.restExpired_listsExact (s : State) (g : GensetNo) (e₀ : s.listsExact) : (s.restExpired g).listsExact := by
  simp only [State.restExpired]
  repeat' split
  all_goals simp_all +contextual (maxDischargeDepth := 20) [foldl_listsExact]

@[simp] theorem State.stopDelayExpired_fixed (s : State) : s.stopDelayExpired.fixed = s.fixed := by
  simp only [State.stopDelayExpired]
  repeat' split
  all_goals simp_all [foldl_fixed]

@[simp] theorem State.stopDelayExpired_listsExact (s : State) (e₀ : s.listsExact) : s.stopDelayExpired.listsExact := by
  simp only [State.stopDelayExpired]
  repeat' split
  all_goals simp_all +contextual (maxDischargeDepth := 20) [foldl_listsExact]

@[simp] theorem State.phaseLimitExpired_fixed (s : State) (g : GensetNo) : (s.phaseLimitExpired g).fixed = s.fixed := by
  simp only [State.phaseLimitExpired]
  repeat' split
  all_goals simp_all [foldl_fixed]

@[simp] theorem State.phaseLimitExpired_listsExact (s : State) (g : GensetNo) (e₀ : s.listsExact) : (s.phaseLimitExpired g).listsExact := by
  simp only [State.phaseLimitExpired]
  repeat' split
  all_goals simp_all +contextual (maxDischargeDepth := 20) [foldl_listsExact]

@[simp] theorem State.coolDownExpired_fixed (s : State) (g : GensetNo) : (s.coolDownExpired g).fixed = s.fixed := by
  simp only [State.coolDownExpired]
  repeat' split
  all_goals simp_all [foldl_fixed]

@[simp] theorem State.coolDownExpired_listsExact (s : State) (g : GensetNo) (e₀ : s.listsExact) : (s.coolDownExpired g).listsExact := by
  simp only [State.coolDownExpired]
  repeat' split
  all_goals simp_all +contextual (maxDischargeDepth := 20) [foldl_listsExact]

theorem State.laneEvent_fixed (s : State) (f : State → State) (hf : (f s).fixed = s.fixed) :
    (s.laneEvent f).fixed = s.fixed := by
  simp [State.laneEvent, hf]

theorem State.laneEvent_listsExact (s : State) (f : State → State) (hf : (f s).listsExact) : (s.laneEvent f).listsExact := by
  simp [State.laneEvent, hf]

@[simp] theorem State.adoption_fixed (s : State) (why : AdoptionWhy) : (s.adoption why).fixed = s.fixed := by
  simp only [State.adoption, State.settleGensets_fixed, State.push_fixed, State.post_fixed]
  exact foldl_fixed _ (fun _ _ => by simp) _ _

@[simp] theorem State.adoption_listsExact (s : State) (why : AdoptionWhy) (e₀ : s.listsExact) : (s.adoption why).listsExact := by
  refine State.settleGensets_listsExact _ _ _ _ ?_
  exact foldl_listsExact _ (fun _ _ h => by simpa using h) _ _ e₀

@[simp] theorem State.leadRequest_fixed (s : State) (g : GensetNo) : (s.leadRequest g).fixed = s.fixed := by
  simp only [State.leadRequest]
  repeat' split
  all_goals simp_all [foldl_fixed]

@[simp] theorem State.leadRequest_listsExact (s : State) (g : GensetNo) (e₀ : s.listsExact) : (s.leadRequest g).listsExact := by
  simp only [State.leadRequest]
  repeat' split
  all_goals simp_all +contextual (maxDischargeDepth := 20) [foldl_listsExact]

@[simp] theorem State.leadAbort_fixed (s : State) (g : GensetNo) : (s.leadAbort g).fixed = s.fixed := by
  simp only [State.leadAbort]
  repeat' split
  all_goals simp_all [foldl_fixed]

@[simp] theorem State.leadAbort_listsExact (s : State) (g : GensetNo) (e₀ : s.listsExact) : (s.leadAbort g).listsExact := by
  simp only [State.leadAbort]
  repeat' split
  all_goals simp_all +contextual (maxDischargeDepth := 20) [foldl_listsExact]

@[simp] theorem State.gsDark_fixed (s : State) : s.gsDark.fixed = s.fixed := by
  simp only [State.gsDark]
  rw [foldl_fixed _ (fun _ _ => by simp), State.dropStop_fixed, fixed_with_gs, foldl_fixed _ (fun _ _ => by simp),
    State.post_fixed, foldl_fixed _ (fun _ _ => by simp)]
  simp

@[simp] theorem State.gsDark_listsExact (s : State) (e₀ : s.listsExact) : s.gsDark.listsExact := by
  simp only [State.gsDark]
  refine foldl_listsExact _ (fun _ _ h => by simp [h]) _ _ ?_
  rw [State.dropStop_listsExact, listsExact_with_gs]
  refine foldl_listsExact _ (fun _ _ h => by simp [h]) _ _ ?_
  rw [State.post_listsExact]
  refine foldl_listsExact _ (fun _ _ h => by simp [h]) _ _ ?_
  simp [e₀]

@[simp] theorem State.gsIsland_fixed (s : State) (new : IslandState) : (s.gsIsland new).fixed = s.fixed := by
  simp only [State.gsIsland]
  repeat' split
  all_goals simp_all [foldl_fixed]

@[simp] theorem State.gsIsland_listsExact (s : State) (new : IslandState) (e₀ : s.listsExact) : (s.gsIsland new).listsExact := by
  simp only [State.gsIsland]
  repeat' split
  all_goals simp_all +contextual (maxDischargeDepth := 20) [foldl_listsExact]

/-! ## Curtail -/

@[simp] theorem State.placeHold_fixed (s : State) (a : ArrayNo) (cap : Kw) (urgent : Bool) : (s.placeHold a cap urgent).fixed = s.fixed := by
  simp only [State.placeHold]
  repeat' split
  all_goals simp_all [foldl_fixed]

@[simp] theorem State.placeHold_listsExact (s : State) (a : ArrayNo) (cap : Kw) (urgent : Bool) (e₀ : s.listsExact) : (s.placeHold a cap urgent).listsExact := by
  simp only [State.placeHold]
  repeat' split
  all_goals simp_all +contextual (maxDischargeDepth := 20) [foldl_listsExact]

@[simp] theorem State.placeRelease_fixed (s : State) (a : ArrayNo) : (s.placeRelease a).fixed = s.fixed := by
  simp only [State.placeRelease]
  repeat' split
  all_goals simp_all [foldl_fixed]

@[simp] theorem State.placeRelease_listsExact (s : State) (a : ArrayNo) (e₀ : s.listsExact) : (s.placeRelease a).listsExact := by
  simp only [State.placeRelease]
  repeat' split
  all_goals simp_all +contextual (maxDischargeDepth := 20) [foldl_listsExact]

@[simp] theorem State.markLowered_fixed (s : State) (a : ArrayNo) : (s.markLowered a).fixed = s.fixed := by
  simp only [State.markLowered]
  repeat' split
  all_goals simp_all [foldl_fixed]

@[simp] theorem State.markLowered_listsExact (s : State) (a : ArrayNo) (e₀ : s.listsExact) : (s.markLowered a).listsExact := by
  simp only [State.markLowered]
  repeat' split
  all_goals simp_all +contextual (maxDischargeDepth := 20) [foldl_listsExact]

@[simp] theorem State.lower_fixed (s : State) (a : ArrayNo) : (s.lower a).fixed = s.fixed := by
  simp only [State.lower]
  repeat' split
  all_goals simp_all [foldl_fixed]

@[simp] theorem State.lower_listsExact (s : State) (a : ArrayNo) (e₀ : s.listsExact) : (s.lower a).listsExact := by
  simp only [State.lower]
  repeat' split
  all_goals simp_all +contextual (maxDischargeDepth := 20) [foldl_listsExact]

@[simp] theorem State.freshHold_fixed (s : State) (a : ArrayNo) : (s.freshHold a).fixed = s.fixed := by
  simp only [State.freshHold]
  repeat' split
  all_goals simp_all [foldl_fixed]

@[simp] theorem State.freshHold_listsExact (s : State) (a : ArrayNo) (e₀ : s.listsExact) : (s.freshHold a).listsExact := by
  simp only [State.freshHold]
  repeat' split
  all_goals simp_all +contextual (maxDischargeDepth := 20) [foldl_listsExact]

@[simp] theorem State.freshIfBare_fixed (s : State) (a : ArrayNo) : (s.freshIfBare a).fixed = s.fixed := by
  simp only [State.freshIfBare]
  repeat' split
  all_goals simp_all [foldl_fixed]

@[simp] theorem State.freshIfBare_listsExact (s : State) (a : ArrayNo) (e₀ : s.listsExact) : (s.freshIfBare a).listsExact := by
  simp only [State.freshIfBare]
  repeat' split
  all_goals simp_all +contextual (maxDischargeDepth := 20) [foldl_listsExact]

@[simp] theorem State.retarget_fixed (s : State) : s.retarget.fixed = s.fixed := by
  simp only [State.retarget]
  repeat' split
  all_goals simp_all [foldl_fixed]

@[simp] theorem State.retarget_listsExact (s : State) (e₀ : s.listsExact) : s.retarget.listsExact := by
  simp only [State.retarget]
  repeat' split
  all_goals simp_all +contextual (maxDischargeDepth := 20) [foldl_listsExact]

@[simp] theorem State.workTargets_fixed (s : State) : s.workTargets.fixed = s.fixed := by
  simp only [State.workTargets]
  repeat' split
  all_goals simp_all [foldl_fixed]

@[simp] theorem State.workTargets_listsExact (s : State) (e₀ : s.listsExact) : s.workTargets.listsExact := by
  simp only [State.workTargets]
  repeat' split
  all_goals simp_all +contextual (maxDischargeDepth := 20) [foldl_listsExact]

@[simp] theorem State.judgeRelease_fixed (s : State) : s.judgeRelease.fixed = s.fixed := by
  simp only [State.judgeRelease]
  repeat' split
  all_goals simp_all [foldl_fixed]

@[simp] theorem State.judgeRelease_listsExact (s : State) (e₀ : s.listsExact) : s.judgeRelease.listsExact := by
  simp only [State.judgeRelease]
  repeat' split
  all_goals simp_all +contextual (maxDischargeDepth := 20) [foldl_listsExact]

@[simp] theorem State.judgeEngage_fixed (s : State) : s.judgeEngage.fixed = s.fixed := by
  simp only [State.judgeEngage]
  repeat' split
  all_goals simp_all [foldl_fixed]

@[simp] theorem State.judgeEngage_listsExact (s : State) (e₀ : s.listsExact) : s.judgeEngage.listsExact := by
  simp only [State.judgeEngage]
  repeat' split
  all_goals simp_all +contextual (maxDischargeDepth := 20) [foldl_listsExact]

@[simp] theorem State.judgeExposure_fixed (b s : State) : (State.judgeExposure b s).fixed = s.fixed := by
  unfold State.judgeExposure; split <;> simp

@[simp] theorem State.judgeExposure_listsExact (b s : State) (e₀ : s.listsExact) : (State.judgeExposure b s).listsExact := by
  unfold State.judgeExposure; split <;> simp [e₀]

@[simp] theorem State.judgeCurtail_fixed (s : State) : s.judgeCurtail.fixed = s.fixed := by
  simp only [State.judgeCurtail]
  repeat' split
  all_goals simp_all [foldl_fixed]

@[simp] theorem State.judgeCurtail_listsExact (s : State) (e₀ : s.listsExact) : s.judgeCurtail.listsExact := by
  simp only [State.judgeCurtail]
  repeat' split
  all_goals simp_all +contextual (maxDischargeDepth := 20) [foldl_listsExact]

@[simp] theorem State.ceilingChanged_fixed (s : State) : s.ceilingChanged.fixed = s.fixed := by
  simp only [State.ceilingChanged]
  repeat' split
  all_goals simp_all [foldl_fixed]

@[simp] theorem State.ceilingChanged_listsExact (s : State) (e₀ : s.listsExact) : s.ceilingChanged.listsExact := by
  simp only [State.ceilingChanged]
  repeat' split
  all_goals simp_all +contextual (maxDischargeDepth := 20) [foldl_listsExact]

@[simp] theorem State.offer_fixed (s : State) (k : ClaimKind) (needs : List (ArrayNo × Kw)) : (s.offer k needs).fixed = s.fixed := by
  simp only [State.offer]
  repeat' split
  all_goals simp_all [foldl_fixed]

@[simp] theorem State.offer_listsExact (s : State) (k : ClaimKind) (needs : List (ArrayNo × Kw)) (e₀ : s.listsExact) : (s.offer k needs).listsExact := by
  simp only [State.offer]
  repeat' split
  all_goals simp_all +contextual (maxDischargeDepth := 20) [foldl_listsExact]

@[simp] theorem State.offerRelease_fixed (s : State) : s.offerRelease.fixed = s.fixed := by
  simp only [State.offerRelease]
  repeat' split
  all_goals simp_all [foldl_fixed]

@[simp] theorem State.offerRelease_listsExact (s : State) (e₀ : s.listsExact) : s.offerRelease.listsExact := by
  simp only [State.offerRelease]
  repeat' split
  all_goals simp_all +contextual (maxDischargeDepth := 20) [foldl_listsExact]

@[simp] theorem State.releaseDelayExpired_fixed (s : State) : s.releaseDelayExpired.fixed = s.fixed := by
  simp only [State.releaseDelayExpired]
  repeat' split
  all_goals simp_all [foldl_fixed]

@[simp] theorem State.releaseDelayExpired_listsExact (s : State) (e₀ : s.listsExact) : s.releaseDelayExpired.listsExact := by
  simp only [State.releaseDelayExpired]
  repeat' split
  all_goals simp_all +contextual (maxDischargeDepth := 20) [foldl_listsExact]

@[simp] theorem State.raiseExposure_fixed (s : State) (k : ClaimKind) (needs : List (ArrayNo × Kw)) :
    (s.raiseExposure k needs).fixed = s.fixed := by
  simp only [State.raiseExposure]
  split <;> exact foldl_fixed _ (fun _ _ => by simp) _ _

@[simp] theorem State.raiseExposure_listsExact (s : State) (k : ClaimKind) (needs : List (ArrayNo × Kw))
    (e₀ : s.listsExact) : (s.raiseExposure k needs).listsExact := by
  simp only [State.raiseExposure]
  split <;> exact foldl_listsExact _ (fun _ _ h => by simpa using h) _ _ e₀

@[simp] theorem State.orderRaised_fixed (s : State) (a : ArrayNo) : (s.orderRaised a).fixed = s.fixed := by
  simp only [State.orderRaised]
  repeat' split
  all_goals simp_all [foldl_fixed]

@[simp] theorem State.orderRaised_listsExact (s : State) (a : ArrayNo) (e₀ : s.listsExact) : (s.orderRaised a).listsExact := by
  simp only [State.orderRaised]
  repeat' split
  all_goals simp_all +contextual (maxDischargeDepth := 20) [foldl_listsExact]

@[simp] theorem State.offerWaiting_fixed (s : State) : (s.offerWaiting).fixed = s.fixed := by
  simp only [State.offerWaiting]
  repeat' split
  all_goals simp_all [foldl_fixed]

@[simp] theorem State.offerWaiting_listsExact (s : State) (e₀ : s.listsExact) : (s.offerWaiting).listsExact := by
  simp only [State.offerWaiting]
  repeat' split
  all_goals simp_all +contextual (maxDischargeDepth := 20) [foldl_listsExact]

@[simp] theorem State.raiseAnswered_fixed (s : State) (raised : List ArrayNo) : (s.raiseAnswered raised).fixed = s.fixed := by
  simp only [State.raiseAnswered]
  repeat' split
  all_goals simp_all [foldl_fixed]

@[simp] theorem State.raiseAnswered_listsExact (s : State) (raised : List ArrayNo) (e₀ : s.listsExact) : (s.raiseAnswered raised).listsExact := by
  simp only [State.raiseAnswered]
  repeat' split
  all_goals simp_all +contextual (maxDischargeDepth := 20) [foldl_listsExact]

@[simp] theorem State.releaseArray_fixed (s : State) (a : ArrayNo) : (s.releaseArray a).fixed = s.fixed := by
  simp only [State.releaseArray]
  repeat' split
  all_goals simp_all [foldl_fixed]

@[simp] theorem State.releaseArray_listsExact (s : State) (a : ArrayNo) (e₀ : s.listsExact) : (s.releaseArray a).listsExact := by
  simp only [State.releaseArray]
  repeat' split
  all_goals simp_all +contextual (maxDischargeDepth := 20) [foldl_listsExact]

@[simp] theorem State.releaseAnswered_fixed (s : State) (whole : Bool) (raised : List ArrayNo) : (s.releaseAnswered whole raised).fixed = s.fixed := by
  simp only [State.releaseAnswered]
  repeat' split
  all_goals simp_all [foldl_fixed]

@[simp] theorem State.releaseAnswered_listsExact (s : State) (whole : Bool) (raised : List ArrayNo) (e₀ : s.listsExact) : (s.releaseAnswered whole raised).listsExact := by
  simp only [State.releaseAnswered]
  repeat' split
  all_goals simp_all +contextual (maxDischargeDepth := 20) [foldl_listsExact]

@[simp] theorem State.orderCovered_fixed (s : State) (a : ArrayNo) : (s.orderCovered a).fixed = s.fixed := by
  simp only [State.orderCovered]
  repeat' split
  all_goals simp_all [foldl_fixed]

@[simp] theorem State.orderCovered_listsExact (s : State) (a : ArrayNo) (e₀ : s.listsExact) : (s.orderCovered a).listsExact := by
  simp only [State.orderCovered]
  repeat' split
  all_goals simp_all +contextual (maxDischargeDepth := 20) [foldl_listsExact]

@[simp] theorem State.offerRaises_fixed (s : State) : s.offerRaises.fixed = s.fixed := by
  simp only [State.offerRaises]
  repeat' split
  all_goals simp_all [foldl_fixed]

@[simp] theorem State.offerRaises_listsExact (s : State) (e₀ : s.listsExact) : s.offerRaises.listsExact := by
  simp only [State.offerRaises]
  repeat' split
  all_goals simp_all +contextual (maxDischargeDepth := 20) [foldl_listsExact]

@[simp] theorem State.renew_fixed (s : State) (a : ArrayNo) : (s.renew a).fixed = s.fixed := by
  simp only [State.renew]
  repeat' split
  all_goals simp_all [foldl_fixed]

@[simp] theorem State.renew_listsExact (s : State) (a : ArrayNo) (e₀ : s.listsExact) : (s.renew a).listsExact := by
  simp only [State.renew]
  repeat' split
  all_goals simp_all +contextual (maxDischargeDepth := 20) [foldl_listsExact]

@[simp] theorem State.renewals_fixed (s : State) : s.renewals.fixed = s.fixed := by
  simp only [State.renewals]
  repeat' split
  all_goals simp_all [foldl_fixed]

@[simp] theorem State.renewals_listsExact (s : State) (e₀ : s.listsExact) : s.renewals.listsExact := by
  simp only [State.renewals]
  repeat' split
  all_goals simp_all +contextual (maxDischargeDepth := 20) [foldl_listsExact]

@[simp] theorem State.swap_fixed (s : State) : s.swap.fixed = s.fixed := by
  simp only [State.swap]
  repeat' split
  all_goals simp_all [foldl_fixed]

@[simp] theorem State.swap_listsExact (s : State) (e₀ : s.listsExact) : s.swap.listsExact := by
  simp only [State.swap]
  repeat' split
  all_goals simp_all +contextual (maxDischargeDepth := 20) [foldl_listsExact]

@[simp] theorem State.clearRefusals_fixed (s : State) : (s.clearRefusals).fixed = s.fixed := by
  simp only [State.clearRefusals]
  repeat' split
  all_goals simp_all [foldl_fixed]

@[simp] theorem State.clearRefusals_listsExact (s : State) (e₀ : s.listsExact) : (s.clearRefusals).listsExact := by
  simp only [State.clearRefusals]
  repeat' split
  all_goals simp_all +contextual (maxDischargeDepth := 20) [foldl_listsExact]

@[simp] theorem State.orderAgain_fixed (s : State) (a : ArrayNo) : (s.orderAgain a).fixed = s.fixed := by
  simp only [State.orderAgain]
  repeat' split
  all_goals simp_all [foldl_fixed]

@[simp] theorem State.orderAgain_listsExact (s : State) (a : ArrayNo) (e₀ : s.listsExact) : (s.orderAgain a).listsExact := by
  simp only [State.orderAgain]
  repeat' split
  all_goals simp_all +contextual (maxDischargeDepth := 20) [foldl_listsExact]

@[simp] theorem State.shareExpired_fixed (s : State) : s.shareExpired.fixed = s.fixed := by
  simp only [State.shareExpired]
  repeat' split
  all_goals simp_all [foldl_fixed]

@[simp] theorem State.shareExpired_listsExact (s : State) (e₀ : s.listsExact) : s.shareExpired.listsExact := by
  simp only [State.shareExpired]
  repeat' split
  all_goals simp_all +contextual (maxDischargeDepth := 20) [foldl_listsExact]

@[simp] theorem State.quantumPassed_fixed (s : State) (a : ArrayNo) : (s.quantumPassed a).fixed = s.fixed := by
  simp only [State.quantumPassed]
  repeat' split
  all_goals simp_all [foldl_fixed]

@[simp] theorem State.quantumPassed_listsExact (s : State) (a : ArrayNo) (e₀ : s.listsExact) : (s.quantumPassed a).listsExact := by
  simp only [State.quantumPassed]
  repeat' split
  all_goals simp_all +contextual (maxDischargeDepth := 20) [foldl_listsExact]

@[simp] theorem State.holdLapsed_fixed (s : State) (a : ArrayNo) : (s.holdLapsed a).fixed = s.fixed := by
  simp only [State.holdLapsed]
  repeat' split
  all_goals simp_all [foldl_fixed]

@[simp] theorem State.holdLapsed_listsExact (s : State) (a : ArrayNo) (e₀ : s.listsExact) : (s.holdLapsed a).listsExact := by
  simp only [State.holdLapsed]
  repeat' split
  all_goals simp_all +contextual (maxDischargeDepth := 20) [foldl_listsExact]

@[simp] theorem State.syncOrdered_fixed (s : State) (a : ArrayNo) : (s.syncOrdered a).fixed = s.fixed := by
  simp only [State.syncOrdered]
  repeat' split
  all_goals simp_all [foldl_fixed]

@[simp] theorem State.syncOrdered_listsExact (s : State) (a : ArrayNo) (e₀ : s.listsExact) : (s.syncOrdered a).listsExact := by
  simp only [State.syncOrdered]
  repeat' split
  all_goals simp_all +contextual (maxDischargeDepth := 20) [foldl_listsExact]

@[simp] theorem State.cuAnswer_fixed (s : State) (a : ArrayNo) (ans : Answered) : (s.cuAnswer a ans).fixed = s.fixed := by
  simp only [State.cuAnswer]
  repeat' split
  all_goals simp_all [foldl_fixed]

@[simp] theorem State.cuAnswer_listsExact (s : State) (a : ArrayNo) (ans : Answered) (e₀ : s.listsExact) : (s.cuAnswer a ans).listsExact := by
  simp only [State.cuAnswer]
  repeat' split
  all_goals simp_all +contextual (maxDischargeDepth := 20) [foldl_listsExact]

@[simp] theorem State.becameReachable_fixed (s : State) (a : ArrayNo) : (s.becameReachable a).fixed = s.fixed := by
  simp only [State.becameReachable]
  repeat' split
  all_goals simp_all [foldl_fixed]

@[simp] theorem State.becameReachable_listsExact (s : State) (a : ArrayNo) (e₀ : s.listsExact) : (s.becameReachable a).listsExact := by
  simp only [State.becameReachable]
  repeat' split
  all_goals simp_all +contextual (maxDischargeDepth := 20) [foldl_listsExact]

@[simp] theorem State.cuReply_fixed (s : State) (d : ArrayDelivery) : (s.cuReply d).fixed = s.fixed := by
  simp only [State.cuReply]
  repeat' split
  all_goals simp_all [foldl_fixed]

@[simp] theorem State.cuReply_listsExact (s : State) (d : ArrayDelivery) (e₀ : s.listsExact) : (s.cuReply d).listsExact := by
  simp only [State.cuReply]
  repeat' split
  all_goals simp_all +contextual (maxDischargeDepth := 20) [foldl_listsExact]

@[simp] theorem State.cuLost_fixed (s : State) (a : ArrayNo) (now : Contact) : (s.cuLost a now).fixed = s.fixed := by
  simp only [State.cuLost]
  repeat' split
  all_goals simp_all [foldl_fixed]

@[simp] theorem State.cuLost_listsExact (s : State) (a : ArrayNo) (now : Contact) (e₀ : s.listsExact) : (s.cuLost a now).listsExact := by
  simp only [State.cuLost]
  repeat' split
  all_goals simp_all +contextual (maxDischargeDepth := 20) [foldl_listsExact]

@[simp] theorem State.cuGone_fixed (s : State) (a : ArrayNo) : (s.cuGone a).fixed = s.fixed := by
  simp only [State.cuGone]
  repeat' split
  all_goals simp_all [foldl_fixed]

@[simp] theorem State.cuGone_listsExact (s : State) (a : ArrayNo) (e₀ : s.listsExact) : (s.cuGone a).listsExact := by
  simp only [State.cuGone]
  repeat' split
  all_goals simp_all +contextual (maxDischargeDepth := 20) [foldl_listsExact]

@[simp] theorem State.cuRun_fixed (s : State) (left : IslandState) : (s.cuRun left).fixed = s.fixed := by
  simp only [State.cuRun]
  repeat' split
  all_goals simp_all [foldl_fixed]

@[simp] theorem State.cuRun_listsExact (s : State) (left : IslandState) (e₀ : s.listsExact) : (s.cuRun left).listsExact := by
  simp only [State.cuRun]
  repeat' split
  all_goals simp_all +contextual (maxDischargeDepth := 20) [foldl_listsExact]

@[simp] theorem State.cuDark_fixed (s : State) : s.cuDark.fixed = s.fixed := by
  simp only [State.cuDark]
  rw [foldl_fixed _ (fun _ _ => by split <;> simp), State.retarget_fixed]
  rfl

@[simp] theorem State.cuDark_listsExact (s : State) (e₀ : s.listsExact) : s.cuDark.listsExact := by
  refine foldl_listsExact _ (fun _ _ h => by split <;> simp [h]) _ _ ?_
  exact State.retarget_listsExact _ e₀

@[simp] theorem State.cuRestore_fixed (s : State) : s.cuRestore.fixed = s.fixed := by
  simp only [State.cuRestore]
  repeat' split
  all_goals simp_all [foldl_fixed]

@[simp] theorem State.cuRestore_listsExact (s : State) (e₀ : s.listsExact) : s.cuRestore.listsExact := by
  simp only [State.cuRestore]
  repeat' split
  all_goals simp_all +contextual (maxDischargeDepth := 20) [foldl_listsExact]

@[simp] theorem State.curtailOn_fixed (s : State) : s.curtailOn.fixed = s.fixed := by
  simp only [State.curtailOn]
  repeat' split
  all_goals simp_all [foldl_fixed]

@[simp] theorem State.curtailOn_listsExact (s : State) (e₀ : s.listsExact) : s.curtailOn.listsExact := by
  simp only [State.curtailOn]
  repeat' split
  all_goals simp_all +contextual (maxDischargeDepth := 20) [foldl_listsExact]

@[simp] theorem State.curtailOff_fixed (s : State) : s.curtailOff.fixed = s.fixed := by
  simp only [State.curtailOff]
  repeat' split
  all_goals simp_all [foldl_fixed]

@[simp] theorem State.curtailOff_listsExact (s : State) (e₀ : s.listsExact) : s.curtailOff.listsExact := by
  simp only [State.curtailOff]
  repeat' split
  all_goals simp_all +contextual (maxDischargeDepth := 20) [foldl_listsExact]

@[simp] theorem State.defineArray_fixed (s : State) (a : ArrayNo) (nameplate : Kw) (fallback : Kw) : (s.defineArray a nameplate fallback).fixed = s.fixed := by
  simp only [State.defineArray]
  repeat' split
  all_goals simp_all [foldl_fixed]

@[simp] theorem State.defineArray_listsExact (s : State) (a : ArrayNo) (nameplate : Kw) (fallback : Kw) (e₀ : s.listsExact) : (s.defineArray a nameplate fallback).listsExact := by
  simp only [State.defineArray]
  repeat' split
  all_goals simp_all +contextual (maxDischargeDepth := 20) [foldl_listsExact]

/-! ## Island -/

@[simp] theorem State.enterIsland_fixed (s : State) (new : IslandState) : (s.enterIsland new).fixed = s.fixed := by
  simp only [State.enterIsland]
  repeat' split
  all_goals simp_all [foldl_fixed]

@[simp] theorem State.enterIsland_listsExact (s : State) (new : IslandState) (e₀ : s.listsExact) : (s.enterIsland new).listsExact := by
  simp only [State.enterIsland]
  repeat' split
  all_goals simp_all +contextual (maxDischargeDepth := 20) [foldl_listsExact]

@[simp] theorem State.clearIcNeed_fixed (s : State) : s.clearIcNeed.fixed = s.fixed := by
  simp only [State.clearIcNeed]
  repeat' split
  all_goals simp_all [foldl_fixed]

@[simp] theorem State.clearIcNeed_listsExact (s : State) (e₀ : s.listsExact) : s.clearIcNeed.listsExact := by
  simp only [State.clearIcNeed]
  repeat' split
  all_goals simp_all +contextual (maxDischargeDepth := 20) [foldl_listsExact]

@[simp] theorem State.dropWalk_fixed (s : State) : s.dropWalk.fixed = s.fixed := by
  simp only [State.dropWalk]
  repeat' split
  all_goals simp_all [foldl_fixed]

@[simp] theorem State.dropWalk_listsExact (s : State) (e₀ : s.listsExact) : s.dropWalk.listsExact := by
  simp only [State.dropWalk]
  repeat' split
  all_goals simp_all +contextual (maxDischargeDepth := 20) [foldl_listsExact]

@[simp] theorem State.startHoldoff_fixed (s : State) : s.startHoldoff.fixed = s.fixed := by
  simp only [State.startHoldoff]
  repeat' split
  all_goals simp_all [foldl_fixed]

@[simp] theorem State.startHoldoff_listsExact (s : State) (e₀ : s.listsExact) : s.startHoldoff.listsExact := by
  simp only [State.startHoldoff]
  repeat' split
  all_goals simp_all +contextual (maxDischargeDepth := 20) [foldl_listsExact]

@[simp] theorem State.enterDark_fixed (s : State) : s.enterDark.fixed = s.fixed := by
  simp only [State.enterDark]
  repeat' split
  all_goals simp_all [foldl_fixed]

@[simp] theorem State.enterDark_listsExact (s : State) (e₀ : s.listsExact) : s.enterDark.listsExact := by
  simp only [State.enterDark]
  repeat' split
  all_goals simp_all +contextual (maxDischargeDepth := 20) [foldl_listsExact]

@[simp] theorem State.enterRun_fixed (s : State) : s.enterRun.fixed = s.fixed := by
  simp only [State.enterRun]
  repeat' split
  all_goals simp_all [foldl_fixed]

@[simp] theorem State.enterRun_listsExact (s : State) (e₀ : s.listsExact) : s.enterRun.listsExact := by
  simp only [State.enterRun]
  repeat' split
  all_goals simp_all +contextual (maxDischargeDepth := 20) [foldl_listsExact]

@[simp] theorem State.markSkip_fixed (s : State) : s.markSkip.fixed = s.fixed := by
  have h : (s.ic.restoreList.modify s.ic.walkPointer fun e => { e with skip := true }).map RestoreEntry.feeder
      = s.ic.restoreList.map RestoreEntry.feeder := by
    generalize s.ic.restoreList = l
    generalize s.ic.walkPointer = k
    induction l generalizing k with
    | nil => cases k <;> rfl
    | cons a l ih => cases k <;> simp [List.modify_cons, ih]
  simp only [State.markSkip, State.fixed, h]

@[simp] theorem State.markSkip_listsExact (s : State) (e₀ : s.listsExact) : s.markSkip.listsExact := e₀

@[simp] theorem State.advanced_fixed (s : State) : s.advanced.fixed = s.fixed := by
  simp only [State.advanced]
  repeat' split
  all_goals simp_all [foldl_fixed]

@[simp] theorem State.advanced_listsExact (s : State) (e₀ : s.listsExact) : s.advanced.listsExact := by
  simp only [State.advanced]
  repeat' split
  all_goals simp_all +contextual (maxDischargeDepth := 20) [foldl_listsExact]

theorem map_modify_feeder (l : List RestoreEntry) (k : Nat) :
    (l.modify k fun e => { e with skip := true }).map RestoreEntry.feeder = l.map RestoreEntry.feeder := by
  induction l generalizing k with
  | nil => cases k <;> rfl
  | cons a l ih => cases k <;> simp [List.modify_cons, ih]

theorem State.takeEntry_fixed (n : Nat) (s : State) : (State.takeEntry n s).fixed = s.fixed := by
  induction n generalizing s with
  | zero => rfl
  | succ n ih =>
    simp only [State.takeEntry]
    repeat' split
    all_goals simp [ih]

theorem State.takeEntry_listsExact (n : Nat) (s : State) (e₀ : s.listsExact) : (State.takeEntry n s).listsExact := by
  induction n generalizing s with
  | zero => exact e₀
  | succ n ih =>
    simp only [State.takeEntry]
    repeat' split
    all_goals first | exact ih _ (by simp (maxDischargeDepth := 20) [e₀]) | (simp [e₀]; done) | exact State.clearIcNeed_listsExact _ e₀

@[simp] theorem State.walkOn_fixed (s : State) : s.walkOn.fixed = s.fixed := State.takeEntry_fixed _ _

@[simp] theorem State.walkOn_listsExact (s : State) (e₀ : s.listsExact) : s.walkOn.listsExact :=
  State.takeEntry_listsExact _ _ e₀

@[simp] theorem State.walkAdvance_fixed (s : State) : s.walkAdvance.fixed = s.fixed := by
  simp only [State.walkAdvance]
  repeat' split
  all_goals simp_all [foldl_fixed]

@[simp] theorem State.walkAdvance_listsExact (s : State) (e₀ : s.listsExact) : s.walkAdvance.listsExact := by
  simp only [State.walkAdvance]
  repeat' split
  all_goals simp_all +contextual (maxDischargeDepth := 20) [foldl_listsExact]

@[simp] theorem State.startSettle_fixed (s : State) : s.startSettle.fixed = s.fixed := by
  simp only [State.startSettle]
  repeat' split
  all_goals simp_all [foldl_fixed]

@[simp] theorem State.startSettle_listsExact (s : State) (e₀ : s.listsExact) : s.startSettle.listsExact := by
  simp only [State.startSettle]
  repeat' split
  all_goals simp_all +contextual (maxDischargeDepth := 20) [foldl_listsExact]

@[simp] theorem State.resumeWalk_fixed (s : State) : s.resumeWalk.fixed = s.fixed := by
  simp only [State.resumeWalk]
  repeat' split
  all_goals simp_all [foldl_fixed]

@[simp] theorem State.resumeWalk_listsExact (s : State) (e₀ : s.listsExact) : s.resumeWalk.listsExact := by
  simp only [State.resumeWalk]
  repeat' split
  all_goals simp_all +contextual (maxDischargeDepth := 20) [foldl_listsExact]

@[simp] theorem State.headroomRose_fixed (s : State) : s.headroomRose.fixed = s.fixed := by
  simp only [State.headroomRose]
  repeat' split
  all_goals simp_all [foldl_fixed]

@[simp] theorem State.headroomRose_listsExact (s : State) (e₀ : s.listsExact) : s.headroomRose.listsExact := by
  simp only [State.headroomRose]
  repeat' split
  all_goals simp_all +contextual (maxDischargeDepth := 20) [foldl_listsExact]

@[simp] theorem State.walkAnswered_fixed (s : State) (f : FeederNo) (kw : Kw) (answer : Option Handle) : (s.walkAnswered f kw answer).fixed = s.fixed := by
  simp only [State.walkAnswered]
  repeat' split
  all_goals simp_all [foldl_fixed]

@[simp] theorem State.walkAnswered_listsExact (s : State) (f : FeederNo) (kw : Kw) (answer : Option Handle) (e₀ : s.listsExact) : (s.walkAnswered f kw answer).listsExact := by
  simp only [State.walkAnswered]
  repeat' split
  all_goals simp_all +contextual (maxDischargeDepth := 20) [foldl_listsExact]

@[simp] theorem State.walkOutcome_fixed (s : State) (h : Handle) (granted : Bool) : (s.walkOutcome h granted).fixed = s.fixed := by
  simp only [State.walkOutcome]
  repeat' split
  all_goals simp_all [foldl_fixed]

@[simp] theorem State.walkOutcome_listsExact (s : State) (h : Handle) (granted : Bool) (e₀ : s.listsExact) : (s.walkOutcome h granted).listsExact := by
  simp only [State.walkOutcome]
  repeat' split
  all_goals simp_all +contextual (maxDischargeDepth := 20) [foldl_listsExact]

@[simp] theorem State.settleExpired_fixed (s : State) : s.settleExpired.fixed = s.fixed := by
  simp only [State.settleExpired]
  repeat' split
  all_goals simp_all [foldl_fixed]

@[simp] theorem State.settleExpired_listsExact (s : State) (e₀ : s.listsExact) : s.settleExpired.listsExact := by
  simp only [State.settleExpired]
  repeat' split
  all_goals simp_all +contextual (maxDischargeDepth := 20) [foldl_listsExact]

@[simp] theorem State.restoreTimers_fixed (s : State) : s.restoreTimers.fixed = s.fixed := by
  simp only [State.restoreTimers]
  repeat' split
  all_goals simp_all [foldl_fixed]

@[simp] theorem State.restoreTimers_listsExact (s : State) (e₀ : s.listsExact) : s.restoreTimers.listsExact := by
  simp only [State.restoreTimers]
  repeat' split
  all_goals simp_all +contextual (maxDischargeDepth := 20) [foldl_listsExact]

@[simp] theorem State.enterRestore_fixed (s : State) : s.enterRestore.fixed = s.fixed := by
  have h : ∀ l : List RestoreEntry, (l.map RestoreEntry.unskipped).map RestoreEntry.feeder = l.map RestoreEntry.feeder :=
    fun l => by simp [Function.comp_def, RestoreEntry.unskipped]
  have h' : ∀ t : State, State.fixed { t with ic := { t.ic with
      restoreList := t.ic.restoreList.map RestoreEntry.unskipped, walkPointer := 0, walkPhase := some .next
      walkPermit := none, settle := none, foreignLive := false, decision := none, lead := none } } = t.fixed :=
    fun t => by simp only [State.fixed, h]
  simp only [State.enterRestore]
  repeat' split
  all_goals simp only [State.enterRun_fixed, State.walkOn_fixed, State.enterIsland_fixed, State.restoreTimers_fixed, h']

@[simp] theorem State.enterRestore_listsExact (s : State) (e₀ : s.listsExact) : s.enterRestore.listsExact := by
  have h : State.listsExact { s with ic := { s.ic with
      restoreList := s.ic.restoreList.map RestoreEntry.unskipped, walkPointer := 0, walkPhase := some .next
      walkPermit := none, settle := none, foreignLive := false, decision := none, lead := none } } := e₀
  have h' := State.restoreTimers_listsExact _ h
  simp only [State.enterRestore]
  repeat' split
  all_goals
    first
      | exact State.enterRun_listsExact _ (State.enterIsland_listsExact _ _ h')
      | exact State.walkOn_listsExact _ (State.enterIsland_listsExact _ _ h')
      | exact State.enterIsland_listsExact _ _ h'

@[simp] theorem State.askLead_fixed (s : State) (g : GensetNo) : (s.askLead g).fixed = s.fixed := by
  simp only [State.askLead]
  repeat' split
  all_goals simp_all [foldl_fixed]

@[simp] theorem State.askLead_listsExact (s : State) (g : GensetNo) (e₀ : s.listsExact) : (s.askLead g).listsExact := by
  simp only [State.askLead]
  repeat' split
  all_goals simp_all +contextual (maxDischargeDepth := 20) [foldl_listsExact]

@[simp] theorem State.enterRestart_fixed (s : State) : s.enterRestart.fixed = s.fixed := by
  simp only [State.enterRestart]
  repeat' split
  all_goals simp_all [foldl_fixed]

@[simp] theorem State.enterRestart_listsExact (s : State) (e₀ : s.listsExact) : s.enterRestart.listsExact := by
  simp only [State.enterRestart]
  repeat' split
  all_goals simp_all +contextual (maxDischargeDepth := 20) [foldl_listsExact]

@[simp] theorem State.busChanged_fixed (s : State) (live : Bool) : (s.busChanged live).fixed = s.fixed := by
  simp only [State.busChanged]
  repeat' split
  all_goals rfl

@[simp] theorem State.busChanged_listsExact (s : State) (live : Bool) (e₀ : s.listsExact) :
    (s.busChanged live).listsExact := by
  simp only [State.busChanged]
  repeat' split
  all_goals exact e₀

@[simp] theorem State.deadConfirmed_fixed (s : State) : s.deadConfirmed.fixed = s.fixed := by
  simp only [State.deadConfirmed]
  repeat' split
  all_goals simp_all [foldl_fixed]

@[simp] theorem State.deadConfirmed_listsExact (s : State) (e₀ : s.listsExact) : s.deadConfirmed.listsExact := by
  simp only [State.deadConfirmed]
  repeat' split
  all_goals simp_all +contextual (maxDischargeDepth := 20) [foldl_listsExact]

@[simp] theorem State.liveConfirmed_fixed (s : State) : s.liveConfirmed.fixed = s.fixed := by
  simp only [State.liveConfirmed]
  repeat' split
  all_goals simp_all [foldl_fixed]

@[simp] theorem State.liveConfirmed_listsExact (s : State) (e₀ : s.listsExact) : s.liveConfirmed.listsExact := by
  simp only [State.liveConfirmed]
  repeat' split
  all_goals simp_all +contextual (maxDischargeDepth := 20) [foldl_listsExact]

@[simp] theorem State.markForeign_fixed (s : State) : s.markForeign.fixed = s.fixed := by
  simp only [State.markForeign]
  repeat' split
  all_goals simp_all [foldl_fixed]

@[simp] theorem State.markForeign_listsExact (s : State) (e₀ : s.listsExact) : s.markForeign.listsExact := by
  simp only [State.markForeign]
  repeat' split
  all_goals simp_all +contextual (maxDischargeDepth := 20) [foldl_listsExact]

@[simp] theorem State.holdoffExpired_fixed (s : State) : s.holdoffExpired.fixed = s.fixed := by
  simp only [State.holdoffExpired]
  repeat' split
  all_goals simp_all [foldl_fixed]

@[simp] theorem State.holdoffExpired_listsExact (s : State) (e₀ : s.listsExact) : s.holdoffExpired.listsExact := by
  simp only [State.holdoffExpired]
  repeat' split
  all_goals simp_all +contextual (maxDischargeDepth := 20) [foldl_listsExact]

@[simp] theorem State.roundFailed_fixed (s : State) : s.roundFailed.fixed = s.fixed := by
  simp only [State.roundFailed]
  repeat' split
  all_goals simp_all [foldl_fixed]

@[simp] theorem State.roundFailed_listsExact (s : State) (e₀ : s.listsExact) : s.roundFailed.listsExact := by
  simp only [State.roundFailed]
  repeat' split
  all_goals simp_all +contextual (maxDischargeDepth := 20) [foldl_listsExact]

@[simp] theorem State.nextLead_fixed (s : State) : s.nextLead.fixed = s.fixed := by
  simp only [State.nextLead]
  repeat' split
  all_goals simp_all [foldl_fixed]

@[simp] theorem State.nextLead_listsExact (s : State) (e₀ : s.listsExact) : s.nextLead.listsExact := by
  simp only [State.nextLead]
  repeat' split
  all_goals simp_all +contextual (maxDischargeDepth := 20) [foldl_listsExact]

@[simp] theorem State.judgeDecision_fixed (s : State) (d : LiveDecision) : (s.judgeDecision d).fixed = s.fixed := by
  simp only [State.judgeDecision]
  repeat' split
  all_goals simp_all [foldl_fixed]

@[simp] theorem State.judgeDecision_listsExact (s : State) (d : LiveDecision) (e₀ : s.listsExact) : (s.judgeDecision d).listsExact := by
  simp only [State.judgeDecision]
  repeat' split
  all_goals simp_all +contextual (maxDischargeDepth := 20) [foldl_listsExact]

@[simp] theorem State.leadEnded_fixed (s : State) (o : LeadOutcome) : (s.leadEnded o).fixed = s.fixed := by
  simp only [State.leadEnded]
  repeat' split
  all_goals simp_all [foldl_fixed]

@[simp] theorem State.leadEnded_listsExact (s : State) (o : LeadOutcome) (e₀ : s.listsExact) : (s.leadEnded o).listsExact := by
  simp only [State.leadEnded]
  repeat' split
  all_goals simp_all +contextual (maxDischargeDepth := 20) [foldl_listsExact]

@[simp] theorem State.adoptionAnswered_fixed (s : State) (why : AdoptionWhy) (adopted : List GensetNo) : (s.adoptionAnswered why adopted).fixed = s.fixed := by
  simp only [State.adoptionAnswered]
  repeat' split
  all_goals simp_all [foldl_fixed]

@[simp] theorem State.adoptionAnswered_listsExact (s : State) (why : AdoptionWhy) (adopted : List GensetNo) (e₀ : s.listsExact) : (s.adoptionAnswered why adopted).listsExact := by
  simp only [State.adoptionAnswered]
  repeat' split
  all_goals simp_all +contextual (maxDischargeDepth := 20) [foldl_listsExact]

@[simp] theorem State.leaveSetup_fixed (s : State) : s.leaveSetup.fixed = s.fixed := by
  simp only [State.leaveSetup]
  repeat' split
  all_goals simp_all [foldl_fixed]

@[simp] theorem State.leaveSetup_listsExact (s : State) (e₀ : s.listsExact) : s.leaveSetup.listsExact := by
  simp only [State.leaveSetup]
  repeat' split
  all_goals simp_all +contextual (maxDischargeDepth := 20) [foldl_listsExact]

@[simp] theorem State.unadopt_fixed (s : State) (f : FeederNo) : (s.unadopt f).fixed = s.fixed := by
  simp only [State.unadopt]
  repeat' split
  all_goals simp_all [foldl_fixed]

@[simp] theorem State.unadopt_listsExact (s : State) (f : FeederNo) (e₀ : s.listsExact) : (s.unadopt f).listsExact := by
  simp only [State.unadopt]
  repeat' split
  all_goals simp_all +contextual (maxDischargeDepth := 20) [foldl_listsExact]

@[simp] theorem State.judgeComplete_fixed (s : State) : s.judgeComplete.fixed = s.fixed := by
  simp only [State.judgeComplete]
  repeat' split
  all_goals simp_all [foldl_fixed]

@[simp] theorem State.judgeComplete_listsExact (s : State) (e₀ : s.listsExact) : s.judgeComplete.listsExact := by
  simp only [State.judgeComplete]
  repeat' split
  all_goals simp_all +contextual (maxDischargeDepth := 20) [foldl_listsExact]

@[simp] theorem State.quietChanged_fixed (s : State) (mark : QuietMark) (quiet : Bool) : (s.quietChanged mark quiet).fixed = s.fixed := by
  simp only [State.quietChanged]
  repeat' split
  all_goals simp_all [foldl_fixed]

@[simp] theorem State.quietChanged_listsExact (s : State) (mark : QuietMark) (quiet : Bool) (e₀ : s.listsExact) : (s.quietChanged mark quiet).listsExact := by
  simp only [State.quietChanged]
  repeat' split
  all_goals simp_all +contextual (maxDischargeDepth := 20) [foldl_listsExact]

@[simp] theorem State.beginStandDown_fixed (s : State) : s.beginStandDown.fixed = s.fixed := by
  simp only [State.beginStandDown]
  repeat' split
  all_goals simp_all [foldl_fixed]

@[simp] theorem State.beginStandDown_listsExact (s : State) (e₀ : s.listsExact) : s.beginStandDown.listsExact := by
  simp only [State.beginStandDown]
  repeat' split
  all_goals simp_all +contextual (maxDischargeDepth := 20) [foldl_listsExact]

@[simp] theorem State.endStandDown_fixed (s : State) : s.endStandDown.fixed = s.fixed := by
  simp only [State.endStandDown]
  repeat' split
  all_goals simp_all [foldl_fixed]

@[simp] theorem State.endStandDown_listsExact (s : State) (e₀ : s.listsExact) : s.endStandDown.listsExact := by
  simp only [State.endStandDown]
  repeat' split
  all_goals simp_all +contextual (maxDischargeDepth := 20) [foldl_listsExact]

@[simp] theorem State.raIsland_fixed (s : State) (left : IslandState) (new : IslandState) : (s.raIsland left new).fixed = s.fixed := by
  simp only [State.raIsland]
  repeat' split
  all_goals simp_all [foldl_fixed]

@[simp] theorem State.raIsland_listsExact (s : State) (left : IslandState) (new : IslandState) (e₀ : s.listsExact) : (s.raIsland left new).listsExact := by
  simp only [State.raIsland]
  repeat' split
  all_goals simp_all +contextual (maxDischargeDepth := 20) [foldl_listsExact]

/-! ## Loop -/

@[simp] theorem State.unurge_fixed (s : State) (u : Addr) : (s.unurge u).fixed = s.fixed := by
  simp only [State.unurge]
  repeat' split
  all_goals simp_all [foldl_fixed]

@[simp] theorem State.unurge_listsExact (s : State) (u : Addr) (e₀ : s.listsExact) : (s.unurge u).listsExact := by
  simp only [State.unurge]
  repeat' split
  all_goals simp_all +contextual (maxDischargeDepth := 20) [foldl_listsExact]

@[simp] theorem State.startGap_fixed (s : State) : s.startGap.fixed = s.fixed := by
  simp only [State.startGap]
  repeat' split
  all_goals simp_all [foldl_fixed]

@[simp] theorem State.startGap_listsExact (s : State) (e₀ : s.listsExact) : s.startGap.listsExact := by
  simp only [State.startGap]
  repeat' split
  all_goals simp_all +contextual (maxDischargeDepth := 20) [foldl_listsExact]

@[simp] theorem State.tellGone_fixed (s : State) (o : SlotOrder) (r : UnitRec) (why : GoneCause) : (s.tellGone o r why).fixed = s.fixed := by
  simp only [State.tellGone]
  repeat' split
  all_goals simp_all [foldl_fixed]

@[simp] theorem State.tellGone_listsExact (s : State) (o : SlotOrder) (r : UnitRec) (why : GoneCause) (e₀ : s.listsExact) : (s.tellGone o r why).listsExact := by
  simp only [State.tellGone]
  repeat' split
  all_goals simp_all +contextual (maxDischargeDepth := 20) [foldl_listsExact]

@[simp] theorem State.beginTurn_fixed (s : State) (u : Addr) (urgent : Bool) : (s.beginTurn u urgent).fixed = s.fixed := by
  simp only [State.beginTurn]
  repeat' split
  all_goals simp_all [foldl_fixed]

@[simp] theorem State.beginTurn_listsExact (s : State) (u : Addr) (urgent : Bool) (e₀ : s.listsExact) : (s.beginTurn u urgent).listsExact := by
  simp only [State.beginTurn]
  repeat' split
  all_goals simp_all +contextual (maxDischargeDepth := 20) [foldl_listsExact]

theorem State.pollTurn_fixed (n : Nat) (s : State) : (State.pollTurn n s).fixed = s.fixed := by
  induction n generalizing s with
  | zero => rfl
  | succ n ih =>
    simp only [State.pollTurn]
    repeat' split
    all_goals simp [ih]

theorem State.pollTurn_listsExact (n : Nat) (s : State) (e₀ : s.listsExact) : (State.pollTurn n s).listsExact := by
  induction n generalizing s with
  | zero => exact e₀
  | succ n ih =>
    simp only [State.pollTurn]
    repeat' split
    all_goals simp [ih, e₀]

@[simp] theorem State.chooseTurn_fixed (s : State) : s.chooseTurn.fixed = s.fixed := by
  simp only [State.chooseTurn]
  split <;> simp [State.pollTurn_fixed]

@[simp] theorem State.chooseTurn_listsExact (s : State) (e₀ : s.listsExact) : s.chooseTurn.listsExact := by
  simp only [State.chooseTurn]
  split <;> simp [State.pollTurn_listsExact, e₀]

@[simp] theorem State.wakeLoop_fixed (s : State) : s.wakeLoop.fixed = s.fixed := by
  simp only [State.wakeLoop]
  repeat' split
  all_goals simp_all [foldl_fixed]

@[simp] theorem State.wakeLoop_listsExact (s : State) (e₀ : s.listsExact) : s.wakeLoop.listsExact := by
  simp only [State.wakeLoop]
  repeat' split
  all_goals simp_all +contextual (maxDischargeDepth := 20) [foldl_listsExact]

@[simp] theorem State.emptySlot_fixed (s : State) (u : Addr) : (s.emptySlot u).fixed = s.fixed := by
  simp only [State.emptySlot]
  repeat' split
  all_goals simp_all [foldl_fixed]

@[simp] theorem State.emptySlot_listsExact (s : State) (u : Addr) (e₀ : s.listsExact) : (s.emptySlot u).listsExact := by
  simp only [State.emptySlot]
  repeat' split
  all_goals simp_all +contextual (maxDischargeDepth := 20) [foldl_listsExact]

@[simp] theorem State.placed_fixed (s : State) (p : Placement) : (s.placed p).fixed = s.fixed := by
  simp only [State.placed]
  repeat' split
  all_goals simp_all [foldl_fixed]

@[simp] theorem State.placed_listsExact (s : State) (p : Placement) (e₀ : s.listsExact) : (s.placed p).listsExact := by
  simp only [State.placed]
  repeat' split
  all_goals simp_all +contextual (maxDischargeDepth := 20) [foldl_listsExact]

@[simp] theorem State.withdrawn_fixed (s : State) (w : Withdrawal) : (s.withdrawn w).fixed = s.fixed := by
  simp only [State.withdrawn]
  repeat' split
  all_goals simp_all [foldl_fixed]

@[simp] theorem State.withdrawn_listsExact (s : State) (w : Withdrawal) (e₀ : s.listsExact) : (s.withdrawn w).listsExact := by
  simp only [State.withdrawn]
  repeat' split
  all_goals simp_all +contextual (maxDischargeDepth := 20) [foldl_listsExact]

@[simp] theorem State.rejudge_fixed (s : State) (t : Turn) : (s.rejudge t).fixed = s.fixed := by
  simp only [State.rejudge]
  repeat' split
  all_goals simp_all [foldl_fixed]

@[simp] theorem State.rejudge_listsExact (s : State) (t : Turn) (e₀ : s.listsExact) : (s.rejudge t).listsExact := by
  simp only [State.rejudge]
  repeat' split
  all_goals simp_all +contextual (maxDischargeDepth := 20) [foldl_listsExact]

@[simp] theorem State.missedTurn_fixed (s : State) (t : Turn) : (s.missedTurn t).fixed = s.fixed := by
  simp only [State.missedTurn]
  repeat' split
  all_goals simp_all [foldl_fixed]

@[simp] theorem State.missedTurn_listsExact (s : State) (t : Turn) (e₀ : s.listsExact) : (s.missedTurn t).listsExact := by
  simp only [State.missedTurn]
  repeat' split
  all_goals simp_all +contextual (maxDischargeDepth := 20) [foldl_listsExact]

@[simp] theorem State.turnMissed_fixed (s : State) (t : Turn) : (s.turnMissed t).fixed = s.fixed := by
  simp only [State.turnMissed]
  repeat' split
  all_goals simp_all [foldl_fixed]

@[simp] theorem State.turnMissed_listsExact (s : State) (t : Turn) (e₀ : s.listsExact) : (s.turnMissed t).listsExact := by
  simp only [State.turnMissed]
  repeat' split
  all_goals simp_all +contextual (maxDischargeDepth := 20) [foldl_listsExact]

@[simp] theorem State.validTurn_fixed (s : State) (t : Turn) (r : UnitRec) (p : ReplyParts) : (s.validTurn t r p).fixed = s.fixed := by
  simp only [State.validTurn]
  repeat' split
  all_goals simp_all [foldl_fixed]

@[simp] theorem State.validTurn_listsExact (s : State) (t : Turn) (r : UnitRec) (p : ReplyParts) (e₀ : s.listsExact) : (s.validTurn t r p).listsExact := by
  simp only [State.validTurn]
  repeat' split
  all_goals simp_all +contextual (maxDischargeDepth := 20) [foldl_listsExact]

@[simp] theorem State.replyTaken_fixed (s : State) (chars : List Byte) : (s.replyTaken chars).fixed = s.fixed := by
  simp only [State.replyTaken]
  repeat' split
  all_goals simp_all [foldl_fixed]

@[simp] theorem State.replyTaken_listsExact (s : State) (chars : List Byte) (e₀ : s.listsExact) : (s.replyTaken chars).listsExact := by
  simp only [State.replyTaken]
  repeat' split
  all_goals simp_all +contextual (maxDischargeDepth := 20) [foldl_listsExact]

@[simp] theorem State.frameLeft_fixed (s : State) : s.frameLeft.fixed = s.fixed := by
  simp only [State.frameLeft]
  repeat' split
  all_goals simp_all [foldl_fixed]

@[simp] theorem State.frameLeft_listsExact (s : State) (e₀ : s.listsExact) : s.frameLeft.listsExact := by
  simp only [State.frameLeft]
  repeat' split
  all_goals simp_all +contextual (maxDischargeDepth := 20) [foldl_listsExact]

@[simp] theorem State.replyBegins_fixed (s : State) : s.replyBegins.fixed = s.fixed := by
  simp only [State.replyBegins]
  repeat' split
  all_goals simp_all [foldl_fixed]

@[simp] theorem State.replyBegins_listsExact (s : State) (e₀ : s.listsExact) : s.replyBegins.listsExact := by
  simp only [State.replyBegins]
  repeat' split
  all_goals simp_all +contextual (maxDischargeDepth := 20) [foldl_listsExact]

@[simp] theorem State.receptionEnds_fixed (s : State) : s.receptionEnds.fixed = s.fixed := by
  simp only [State.receptionEnds]
  repeat' split
  all_goals simp_all [foldl_fixed]

@[simp] theorem State.receptionEnds_listsExact (s : State) (e₀ : s.listsExact) : s.receptionEnds.listsExact := by
  simp only [State.receptionEnds]
  repeat' split
  all_goals simp_all +contextual (maxDischargeDepth := 20) [foldl_listsExact]

@[simp] theorem State.windowExpired_fixed (s : State) : s.windowExpired.fixed = s.fixed := by
  simp only [State.windowExpired]
  repeat' split
  all_goals simp_all [foldl_fixed]

@[simp] theorem State.windowExpired_listsExact (s : State) (e₀ : s.listsExact) : s.windowExpired.listsExact := by
  simp only [State.windowExpired]
  repeat' split
  all_goals simp_all +contextual (maxDischargeDepth := 20) [foldl_listsExact]

@[simp] theorem State.gapExpired_fixed (s : State) : s.gapExpired.fixed = s.fixed := by
  simp only [State.gapExpired]
  repeat' split
  all_goals simp_all [foldl_fixed]

@[simp] theorem State.gapExpired_listsExact (s : State) (e₀ : s.listsExact) : s.gapExpired.listsExact := by
  simp only [State.gapExpired]
  repeat' split
  all_goals simp_all +contextual (maxDischargeDepth := 20) [foldl_listsExact]

@[simp] theorem State.setAddr_fixed (s : State) (r : UnitRec) (u : Option Addr) : (s.setAddr r u).fixed = s.fixed := by
  simp only [State.setAddr]
  repeat' split
  all_goals simp_all [foldl_fixed]

@[simp] theorem State.setAddr_listsExact (s : State) (r : UnitRec) (u : Option Addr) (e₀ : s.listsExact) : (s.setAddr r u).listsExact := by
  simp only [State.setAddr]
  repeat' split
  all_goals simp_all +contextual (maxDischargeDepth := 20) [foldl_listsExact]

@[simp] theorem State.unbind_fixed (s : State) (u : Addr) : (s.unbind u).fixed = s.fixed := by
  simp only [State.unbind]
  repeat' split
  all_goals simp_all [foldl_fixed]

@[simp] theorem State.unbind_listsExact (s : State) (u : Addr) (e₀ : s.listsExact) : (s.unbind u).listsExact := by
  simp only [State.unbind]
  repeat' split
  all_goals simp_all +contextual (maxDischargeDepth := 20) [foldl_listsExact]

@[simp] theorem State.bind_fixed (s : State) (u : Addr) (r : Option UnitRec) : (s.bind u r).fixed = s.fixed := by
  simp only [State.bind]
  split <;> simp

@[simp] theorem State.bind_listsExact (s : State) (u : Addr) (r : Option UnitRec) (e₀ : s.listsExact) :
    (s.bind u r).listsExact := by
  simp only [State.bind]
  split <;> simp (maxDischargeDepth := 20) [e₀]

@[simp] theorem State.setPolls_listsExact (s : State) (l : List Addr) (e₀ : s.listsExact) : (s.setPolls l).listsExact := by
  simp [State.setPolls, e₀]

theorem State.setPolls_fixed (s : State) (l : List Addr) : (s.setPolls l).fixed = { s.fixed with polls := l } := by
  simp only [State.setPolls, State.wakeLoop_fixed]
  rfl

/-! ## Postings -/

@[simp] theorem State.postAdmission_fixed (s : State) (i : Slot) : (s.postAdmission i).fixed = s.fixed := by
  simp only [State.postAdmission]
  repeat' split
  all_goals first
    | rfl
    | (obtain ⟨rfl, -⟩ := State.claim_some ‹State.claim _ _ = some _›; simp)

@[simp] theorem State.postAdmission_listsExact (s : State) (i : Slot) (e₀ : s.listsExact) : (s.postAdmission i).listsExact := by
  simp only [State.postAdmission]
  repeat' split
  all_goals first
    | exact e₀
    | (obtain ⟨rfl, -⟩ := State.claim_some ‹State.claim _ _ = some _›; simp (maxDischargeDepth := 20) [e₀])

@[simp] theorem State.postIncrease_fixed (s : State) (i : Slot) (kw : Kw) : (s.postIncrease i kw).fixed = s.fixed := by
  simp only [State.postIncrease]
  repeat' split
  all_goals first
    | rfl
    | (obtain ⟨rfl, -⟩ := State.claim_some ‹State.claim _ _ = some _›; simp)

@[simp] theorem State.postIncrease_listsExact (s : State) (i : Slot) (kw : Kw) (e₀ : s.listsExact) :
    (s.postIncrease i kw).listsExact := by
  simp only [State.postIncrease]
  repeat' split
  all_goals first
    | exact e₀
    | (obtain ⟨rfl, -⟩ := State.claim_some ‹State.claim _ _ = some _›; simp (maxDischargeDepth := 20) [e₀])

@[simp] theorem State.postCut_fixed (s : State) (i : Slot) (kw : Kw) : (s.postCut i kw).fixed = s.fixed := by
  simp only [State.postCut]
  repeat' split
  all_goals first | rfl | simp [(State.adjustPermit_ok ‹State.adjustPermit _ _ _ = .ok _›).1]

@[simp] theorem State.postCut_listsExact (s : State) (i : Slot) (kw : Kw) (e₀ : s.listsExact) : (s.postCut i kw).listsExact := by
  simp only [State.postCut]
  repeat' split
  all_goals first
    | exact e₀
    | simp [(State.adjustPermit_ok ‹State.adjustPermit _ _ _ = .ok _›).2 e₀]

@[simp] theorem State.postDraw_fixed (s : State) (f : FeederNo) (kw : Kw) : (s.postDraw f kw).fixed = s.fixed := by
  simp only [State.postDraw]
  repeat' split
  all_goals simp_all [foldl_fixed]

@[simp] theorem State.postDraw_listsExact (s : State) (f : FeederNo) (kw : Kw) (e₀ : s.listsExact) : (s.postDraw f kw).listsExact := by
  simp only [State.postDraw]
  repeat' split
  all_goals simp_all +contextual (maxDischargeDepth := 20) [foldl_listsExact]

@[simp] theorem State.postOnline_fixed (s : State) (g : GensetNo) : (s.postOnline g).fixed = s.fixed := by
  simp only [State.postOnline]
  repeat' split
  all_goals simp_all [foldl_fixed]

@[simp] theorem State.postOnline_listsExact (s : State) (g : GensetNo) (e₀ : s.listsExact) : (s.postOnline g).listsExact := by
  simp only [State.postOnline]
  repeat' split
  all_goals simp_all +contextual (maxDischargeDepth := 20) [foldl_listsExact]

@[simp] theorem State.postOffline_fixed (s : State) (g : GensetNo) : (s.postOffline g).fixed = s.fixed := by
  simp only [State.postOffline]
  repeat' split
  all_goals simp_all [foldl_fixed]

@[simp] theorem State.postOffline_listsExact (s : State) (g : GensetNo) (e₀ : s.listsExact) : (s.postOffline g).listsExact := by
  simp only [State.postOffline]
  repeat' split
  all_goals simp_all +contextual (maxDischargeDepth := 20) [foldl_listsExact]

end Sys2Proof.Machine
end

