-- ==== Sys2Proof/Laws/Frames.lean ====
section
/-! SUPPORT. What each block's operations leave alone: `sansX s` is `s` with the records of block X, the tellings and the
needs blanked, and every operation of X keeps it. So every other block's records, the settings, the queue and the pins stay. -/

set_option linter.unusedSimpArgs false
set_option linter.unusedTactic false
set_option linter.unreachableTactic false

namespace Sys2Proof.Machine

/-! ## Admission -/

/-- The state without the Admission Engine's and the Shed Engine's records, the Need Register and the tellings. -/
def State.sansAdmission (s : State) : State := { s with events := [], needs := {}, ae := {}, se := {} }

/-- What `sansAdmission` keeping says: nothing else has changed. -/
theorem State.sansAdmission_frame {s t : State} (h : t.sansAdmission = s.sansAdmission) : t = { s with events := t.events, needs := t.needs, ae := t.ae, se := t.se } := by
  have h_pending : t.pending = s.pending := by have e := congrArg State.pending h; exact e
  have h_clock : t.clock = s.clock := by have e := congrArg State.clock h; exact e
  have h_inReset : t.inReset = s.inReset := by have e := congrArg State.inReset h; exact e
  have h_pins : t.pins = s.pins := by have e := congrArg State.pins h; exact e
  have h_gs : t.gs = s.gs := by have e := congrArg State.gs h; exact e
  have h_cu : t.cu = s.cu := by have e := congrArg State.cu h; exact e
  have h_ic : t.ic = s.ic := by have e := congrArg State.ic h; exact e
  have h_flc : t.flc = s.flc := by have e := congrArg State.flc h; exact e
  have h_sp : t.sp = s.sp := by have e := congrArg State.sp h; exact e
  cases t
  simp_all

@[simp↓] theorem sansAdmission_with_events (s : State) (x : List Instr) :
    State.sansAdmission { s with events := x } = s.sansAdmission := rfl
@[simp↓] theorem sansAdmission_with_needs (s : State) (x : Needs) :
    State.sansAdmission { s with needs := x } = s.sansAdmission := rfl
@[simp↓] theorem sansAdmission_with_ae (s : State) (x : Admission) :
    State.sansAdmission { s with ae := x } = s.sansAdmission := rfl
@[simp↓] theorem sansAdmission_with_se (s : State) (x : Shedding) :
    State.sansAdmission { s with se := x } = s.sansAdmission := rfl
@[simp↓] theorem sansAdmission_with_events_needs (s : State) (x : List Instr) (y : Needs) :
    State.sansAdmission { s with events := x, needs := y } = s.sansAdmission := rfl
@[simp↓] theorem sansAdmission_with_events_ae (s : State) (x : List Instr) (y : Admission) :
    State.sansAdmission { s with events := x, ae := y } = s.sansAdmission := rfl
@[simp↓] theorem sansAdmission_with_events_se (s : State) (x : List Instr) (y : Shedding) :
    State.sansAdmission { s with events := x, se := y } = s.sansAdmission := rfl
@[simp↓] theorem sansAdmission_with_needs_events (s : State) (x : Needs) (y : List Instr) :
    State.sansAdmission { s with needs := x, events := y } = s.sansAdmission := rfl
@[simp↓] theorem sansAdmission_with_needs_ae (s : State) (x : Needs) (y : Admission) :
    State.sansAdmission { s with needs := x, ae := y } = s.sansAdmission := rfl
@[simp↓] theorem sansAdmission_with_needs_se (s : State) (x : Needs) (y : Shedding) :
    State.sansAdmission { s with needs := x, se := y } = s.sansAdmission := rfl
@[simp↓] theorem sansAdmission_with_ae_events (s : State) (x : Admission) (y : List Instr) :
    State.sansAdmission { s with ae := x, events := y } = s.sansAdmission := rfl
@[simp↓] theorem sansAdmission_with_ae_needs (s : State) (x : Admission) (y : Needs) :
    State.sansAdmission { s with ae := x, needs := y } = s.sansAdmission := rfl
@[simp↓] theorem sansAdmission_with_ae_se (s : State) (x : Admission) (y : Shedding) :
    State.sansAdmission { s with ae := x, se := y } = s.sansAdmission := rfl
@[simp↓] theorem sansAdmission_with_se_events (s : State) (x : Shedding) (y : List Instr) :
    State.sansAdmission { s with se := x, events := y } = s.sansAdmission := rfl
@[simp↓] theorem sansAdmission_with_se_needs (s : State) (x : Shedding) (y : Needs) :
    State.sansAdmission { s with se := x, needs := y } = s.sansAdmission := rfl
@[simp↓] theorem sansAdmission_with_se_ae (s : State) (x : Shedding) (y : Admission) :
    State.sansAdmission { s with se := x, ae := y } = s.sansAdmission := rfl
@[simp] theorem State.setPermit_sansAdmission (s : State) (i : Slot) (p : Permit) : (s.setPermit i p).sansAdmission = s.sansAdmission := rfl
@[simp] theorem State.setFeeder_sansAdmission (s : State) (f : FeederNo) (r : Feeder) : (s.setFeeder f r).sansAdmission = s.sansAdmission := rfl
@[simp] theorem State.push_sansAdmission (s : State) (e : Instr) : (s.push e).sansAdmission = s.sansAdmission := rfl
@[simp] theorem State.pushAll_sansAdmission (s : State) (es : List Instr) : (s.pushAll es).sansAdmission = s.sansAdmission := rfl
@[simp] theorem State.took_sansAdmission (s : State) (e : Instr) : (s.took e).sansAdmission = s.sansAdmission := rfl
@[simp] theorem State.notice_sansAdmission (s : State) (n : Notice) : (s.notice n).sansAdmission = s.sansAdmission := rfl
@[simp] theorem State.place_sansAdmission (s : State) (r : UnitRec) (o : Order) (b : Block) (u : Bool) : (s.place r o b u).sansAdmission = s.sansAdmission := rfl
@[simp] theorem State.withdraw_sansAdmission (s : State) (r : UnitRec) (k : OrderKind) (b : Block) : (s.withdraw r k b).sansAdmission = s.sansAdmission := rfl
@[simp] theorem State.endFlight_sansAdmission (s : State) : s.endFlight.sansAdmission = s.sansAdmission := rfl
@[simp] theorem State.startGuard_sansAdmission (s : State) : s.startGuard.sansAdmission = s.sansAdmission := rfl
@[simp] theorem State.arrive_sansAdmission (s : State) : s.arrive.sansAdmission = s.sansAdmission := rfl
@[simp] theorem State.notify_sansAdmission (s t : State) : (s.notify t).sansAdmission = t.sansAdmission := rfl
@[simp] theorem State.post_sansAdmission (s : State) (f : State → State) : (s.post f).sansAdmission = (f s).sansAdmission := rfl
@[simp] theorem State.setNeed_sansAdmission (s : State) (src : NeedSource) (kw : Option Kw) : (s.setNeed src kw).sansAdmission = s.sansAdmission := by
  unfold State.setNeed; cases src <;> split <;> rfl
theorem foldl_sansAdmission {α : Type} (f : State → α → State) (h : ∀ t a, (f t a).sansAdmission = t.sansAdmission) (l : List α) (s : State) :
    (l.foldl f s).sansAdmission = s.sansAdmission := by
  induction l generalizing s with
  | nil => rfl
  | cons a l ih => simp [ih, h]

@[simp] theorem State.passFeeder_sansAdmission (s : State) (i : Slot) (old p : Permit) :
    (s.passFeeder i old p).sansAdmission = s.sansAdmission := by
  unfold State.passFeeder; split <;> rfl
@[simp] theorem State.relist_sansAdmission (s : State) (i : Slot) (a b : PermitState) :
    (s.relist i a b).sansAdmission = s.sansAdmission := by
  unfold State.relist; split <;> rfl
@[simp] theorem State.enter_sansAdmission (s : State) (i : Slot) (p : Permit) : (s.enter i p).sansAdmission = s.sansAdmission := by
  simp only [State.enter]; split <;> simp
@[simp] theorem State.burn_sansAdmission (s : State) (i : Slot) : (s.burn i).sansAdmission = s.sansAdmission := rfl

@[simp] theorem State.freed_sansAdmission (s : State) (i : Slot) :
    (s.freed i).sansAdmission = s.sansAdmission := by
  simp only [State.freed]
  repeat' split
  all_goals simp_all [foldl_sansAdmission]

@[simp] theorem State.free_sansAdmission (s : State) (i : Slot) :
    (s.free i).sansAdmission = s.sansAdmission := by
  simp only [State.free]
  repeat' split
  all_goals simp_all [foldl_sansAdmission]

@[simp] theorem State.revoke_sansAdmission (s : State) (i : Slot) (reason : RevokeReason) :
    (s.revoke i reason).sansAdmission = s.sansAdmission := by
  simp only [State.revoke]
  repeat' split
  all_goals simp_all [foldl_sansAdmission]

@[simp] theorem State.aePlace_sansAdmission (s : State) (f : FeederNo) (o : Order) :
    (s.aePlace f o).sansAdmission = s.sansAdmission := by
  simp only [State.aePlace]
  repeat' split
  all_goals simp_all [foldl_sansAdmission]

@[simp] theorem State.aeEmpty_sansAdmission (s : State) (f : FeederNo) :
    (s.aeEmpty f).sansAdmission = s.sansAdmission := by
  simp only [State.aeEmpty]
  repeat' split
  all_goals simp_all [foldl_sansAdmission]

@[simp] theorem State.confirmGrant_sansAdmission (s : State) (i : Slot) :
    (s.confirmGrant i).sansAdmission = s.sansAdmission := by
  simp only [State.confirmGrant]
  repeat' split
  all_goals simp_all [foldl_sansAdmission]

@[simp] theorem State.judgeNeed_sansAdmission (s : State) :
    s.judgeNeed.sansAdmission = s.sansAdmission := by
  simp only [State.judgeNeed]
  repeat' split
  all_goals simp_all [foldl_sansAdmission]

@[simp] theorem State.serveCandidate_sansAdmission (s : State) : s.serveCandidate.sansAdmission = s.sansAdmission := by
  simp only [State.serveCandidate]
  split
  · rfl
  · split
    · rfl
    · split
      · split
        · rename_i t h
          obtain ⟨rfl, -⟩ := State.claim_some h
          simp
        · rfl
      · rfl

@[simp] theorem State.named?_sansAdmission (s : State) (h : Handle) :
    (s.named? h).sansAdmission = s.sansAdmission := by
  simp only [State.named?]
  repeat' split
  all_goals simp_all [foldl_sansAdmission]

@[simp] theorem State.serveRelease_sansAdmission (s : State) :
    s.serveRelease.sansAdmission = s.sansAdmission := by
  simp only [State.serveRelease]
  repeat' split
  all_goals simp_all [foldl_sansAdmission]

theorem State.serveQueue_sansAdmission (n : Nat) (s : State) : (State.serveQueue n s).sansAdmission = s.sansAdmission := by
  induction n generalizing s with
  | zero => rfl
  | succ n ih =>
    simp only [State.serveQueue]
    split
    · rfl
    · split
      · rename_i t h
        obtain ⟨rfl, -⟩ := State.claim_some h
        simp [ih]
      · rfl

@[simp] theorem State.serve_sansAdmission (s : State) : s.serve.sansAdmission = s.sansAdmission := by
  simp only [State.serve]
  repeat' split
  all_goals simp_all [State.serveQueue_sansAdmission]

@[simp] theorem State.settleAdmission_sansAdmission (before after : State) : (State.settleAdmission before after).sansAdmission = after.sansAdmission := by
  simp only [State.settleAdmission]
  repeat' split
  all_goals simp_all (maxDischargeDepth := 20)

/-- How a request is decided leaves the configuration alone. -/
theorem State.decideRequest_sansAdmission (s : State) (holder : Holder) (cls : Nat) (kw draw : Kw) (mayWait : Bool) (wait : Ms)
    (expiry : Option Nat) : (s.decideRequest holder cls kw draw mayWait wait expiry).2.sansAdmission = s.sansAdmission := by
  simp only [State.decideRequest]
  split
  · rfl
  · split
    · rename_i u h
      split at h
      · cases h
      · obtain ⟨rfl, -⟩ := State.claim_some h
        simp
    · repeat' split
      all_goals simp

@[simp] theorem State.shedTo_sansAdmission (s : State) (st : ShedState) :
    (s.shedTo st).sansAdmission = s.sansAdmission := by
  simp only [State.shedTo]
  repeat' split
  all_goals simp_all [foldl_sansAdmission]

@[simp] theorem State.select_sansAdmission (s : State) :
    s.select.sansAdmission = s.sansAdmission := by
  simp only [State.select]
  repeat' split
  all_goals simp_all [foldl_sansAdmission]

@[simp] theorem State.judgeCandidate_sansAdmission (s : State) :
    s.judgeCandidate.sansAdmission = s.sansAdmission := by
  simp only [State.judgeCandidate]
  repeat' split
  all_goals simp_all [foldl_sansAdmission]

@[simp] theorem State.judgeShed_sansAdmission (s : State) :
    s.judgeShed.sansAdmission = s.sansAdmission := by
  simp only [State.judgeShed]
  repeat' split
  all_goals simp_all [foldl_sansAdmission]

@[simp] theorem State.reselect_sansAdmission (s : State) :
    s.reselect.sansAdmission = s.sansAdmission := by
  simp only [State.reselect]
  repeat' split
  all_goals simp_all [foldl_sansAdmission]

@[simp] theorem State.openUnlessHeld_sansAdmission (s : State) (f : FeederNo) :
    (s.openUnlessHeld f).sansAdmission = s.sansAdmission := by
  simp only [State.openUnlessHeld]
  repeat' split
  all_goals simp_all [foldl_sansAdmission]

@[simp] theorem State.noteFeeder_sansAdmission (s : State) (f : FeederNo) (r : FeederReport) :
    (s.noteFeeder f r).sansAdmission = s.sansAdmission := by
  simp only [State.noteFeeder]
  repeat' split
  all_goals simp_all [foldl_sansAdmission]

@[simp] theorem State.answerClosed_sansAdmission (s : State) (f : FeederNo) (r : FeederReport) :
    (s.answerClosed f r).sansAdmission = s.sansAdmission := by
  simp only [State.answerClosed]
  repeat' split
  all_goals simp_all [foldl_sansAdmission]

@[simp] theorem State.setLocal_sansAdmission (s : State) (f : FeederNo) :
    (s.setLocal f).sansAdmission = s.sansAdmission := by
  simp only [State.setLocal]
  repeat' split
  all_goals simp_all [foldl_sansAdmission]

@[simp] theorem State.revocationRefused_sansAdmission (s : State) (i : Slot) :
    (s.revocationRefused i).sansAdmission = s.sansAdmission := by
  simp only [State.revocationRefused]
  repeat' split
  all_goals simp_all [foldl_sansAdmission]

@[simp] theorem State.openRefused_sansAdmission (s : State) (f : FeederNo) (o : Order) (r : FeederReport) :
    (s.openRefused f o r).sansAdmission = s.sansAdmission := by
  simp only [State.openRefused]
  repeat' split
  all_goals simp_all [foldl_sansAdmission]

@[simp] theorem State.reselectIf_sansAdmission (s : State) (f : FeederNo) (w o : Bool) :
    (s.reselectIf f w o).sansAdmission = s.sansAdmission := by
  simp only [State.reselectIf]
  repeat' split
  all_goals simp_all [foldl_sansAdmission]

@[simp] theorem State.seReport_sansAdmission (s : State) (f : FeederNo) (r : FeederReport) :
    (s.seReport f r).sansAdmission = s.sansAdmission := by
  simp only [State.seReport]
  repeat' split
  all_goals simp_all [foldl_sansAdmission]

@[simp] theorem State.seAnswer_sansAdmission (s : State) (f : FeederNo) (r : FeederReport) (a : Answered) :
    (s.seAnswer f r a).sansAdmission = s.sansAdmission := by
  simp only [State.seAnswer]
  repeat' split
  all_goals simp_all [foldl_sansAdmission]

@[simp] theorem State.seReply_sansAdmission (s : State) (d : FeederDelivery) :
    (s.seReply d).sansAdmission = s.sansAdmission := by
  simp only [State.seReply]
  repeat' split
  all_goals simp_all [foldl_sansAdmission]

@[simp] theorem State.seContact_sansAdmission (s : State) (f : FeederNo) (now : Contact) :
    (s.seContact f now).sansAdmission = s.sansAdmission := by
  simp only [State.seContact]
  repeat' split
  all_goals simp_all [foldl_sansAdmission]

@[simp] theorem State.seJudges_sansAdmission (s : State) :
    (s.seJudges).sansAdmission = s.sansAdmission := by
  simp only [State.seJudges]
  repeat' split
  all_goals simp_all [foldl_sansAdmission]

@[simp] theorem State.dropNaming_sansAdmission (s : State) : s.dropNaming.sansAdmission = s.sansAdmission := rfl

@[simp] theorem State.seDark_sansAdmission (s : State) : s.seDark.sansAdmission = s.sansAdmission := by
  simp only [State.seDark]
  rw [foldl_sansAdmission _ (fun _ _ => by split <;> simp), State.shedTo_sansAdmission, State.dropNaming_sansAdmission]

@[simp] theorem State.revokeFailed_sansAdmission (s : State) (i : Slot) :
    (s.revokeFailed i).sansAdmission = s.sansAdmission := by
  simp only [State.revokeFailed]
  repeat' split
  all_goals simp_all [foldl_sansAdmission]

@[simp] theorem State.namingEnded_sansAdmission (s : State) :
    s.namingEnded.sansAdmission = s.sansAdmission := by
  simp only [State.namingEnded]
  repeat' split
  all_goals simp_all [foldl_sansAdmission]

@[simp] theorem State.adopt_sansAdmission (s : State) (f : FeederNo) (draw : Kw) (quiet : Bool) :
    (s.adopt f draw quiet).sansAdmission = s.sansAdmission := by
  simp only [State.adopt]
  split
  · rfl
  · rename_i h
    rcases State.adopt_made h with rfl | rfl <;> split <;> simp

@[simp] theorem State.withdrawOpen_sansAdmission (s : State) (f : FeederNo) :
    (s.withdrawOpen f).sansAdmission = s.sansAdmission := by
  simp only [State.withdrawOpen]
  repeat' split
  all_goals simp_all [foldl_sansAdmission]

@[simp] theorem State.confirmShed_sansAdmission (s : State) (i : Slot) (f : FeederNo) (draw : Kw) :
    (s.confirmShed i f draw).sansAdmission = s.sansAdmission := by
  simp only [State.confirmShed]
  repeat' split
  all_goals simp_all [foldl_sansAdmission]

@[simp] theorem State.reportPermit_sansAdmission (s : State) (f : FeederNo) (i : Slot) (closed : Bool) (draw : Kw) (quiet : Bool) :
    (s.reportPermit f i closed draw quiet).sansAdmission = s.sansAdmission := by
  delta State.reportPermit
  dsimp only
  repeat' split
  all_goals simp

@[simp] theorem State.aeReport_sansAdmission (s : State) (d : FeederDelivery) :
    (s.aeReport d).sansAdmission = s.sansAdmission := by
  simp only [State.aeReport]
  repeat' split
  all_goals simp_all [foldl_sansAdmission]

@[simp] theorem State.judgeMark_sansAdmission (s : State) (i : Slot) : (s.judgeMark i).sansAdmission = s.sansAdmission := by
  simp only [State.judgeMark]
  split <;> rfl

@[simp] theorem State.countRelease_sansAdmission (s : State) (i : Slot) (kw : Kw) :
    (s.countRelease i kw).sansAdmission = s.sansAdmission := by
  simp only [State.countRelease]
  repeat' split
  all_goals simp_all [foldl_sansAdmission]

@[simp] theorem State.aeAnswer_sansAdmission (s : State) (a : Answered) :
    (s.aeAnswer a).1.sansAdmission = s.sansAdmission := by
  simp only [State.aeAnswer]
  repeat' split
  all_goals simp_all [foldl_sansAdmission]

@[simp] theorem State.retirePermit_sansAdmission (s : State) (i : Slot) : (s.retirePermit i).sansAdmission = s.sansAdmission := by
  simp only [State.retirePermit]
  repeat' split
  all_goals simp

/-- An ADJUST or CHANGE that is taken changes the Admission Engine's records alone (R25, R29). -/
theorem State.adjustPermit_sansAdmission {s t : State} {i : Slot} {kw : Kw} (h : s.adjustPermit i kw = .ok t) :
    t.sansAdmission = s.sansAdmission := by
  simp only [State.adjustPermit] at h
  repeat' split at h
  all_goals first | cases h; done | skip
  all_goals
    obtain rfl := Except.ok.inj h
    try obtain ⟨rfl, -⟩ := State.claim_some ‹State.claim _ _ = some _›
    simp

@[simp] theorem State.deny_sansAdmission (s : State) (f : FeederNo) (h : Option Handle) (r : Reason) :
    (s.deny f h r).sansAdmission = s.sansAdmission := by
  simp only [State.deny]
  repeat' split
  all_goals simp_all [foldl_sansAdmission]

@[simp] theorem State.newRequest_sansAdmission (s : State) (f : FeederNo) (draw : Kw) (c : DrawClaim) :
    (s.newRequest f draw c).sansAdmission = s.sansAdmission := by
  have k := fun w => s.decideRequest_sansAdmission (.feeder f) (s.feeder f).cls c.kw draw c.mayWait w none
  simp only [State.newRequest]
  split
  · simp
  · split
    all_goals first | (simp; done) | skip
    split
    · simp
    · have k' := k (secs (if c.waitLimit = 0 then s.setting .defaultWaitLimit else c.waitLimit))
      split
      all_goals
        rename_i h
        rw [h] at k'
        first
          | (simpa using k'; done)
          | (split <;> first | rfl | simpa using k')

@[simp] theorem State.changeRequest_sansAdmission (s : State) (f : FeederNo) (i : Slot) (c : DrawClaim) :
    (s.changeRequest f i c).sansAdmission = s.sansAdmission := by
  simp only [State.changeRequest]
  repeat' split
  all_goals first | (simp; done) | (simp [State.adjustPermit_sansAdmission ‹State.adjustPermit _ _ _ = .ok _›])

@[simp] theorem State.takeDraw_sansAdmission (s : State) (d : FeederDelivery) (c : DrawClaim) :
    (s.takeDraw d c).sansAdmission = s.sansAdmission := by
  simp only [State.takeDraw]
  repeat' split
  all_goals simp_all [foldl_sansAdmission]

@[simp] theorem State.takeRelease_sansAdmission (before : State) (s : State) (d : FeederDelivery) (h : Handle) :
    (before.takeRelease s d h).sansAdmission = s.sansAdmission := by
  simp only [State.takeRelease]
  repeat' split
  all_goals simp_all [foldl_sansAdmission]

@[simp] theorem State.aeReturns_sansAdmission (s : State) (d : FeederDelivery) :
    (s.aeReturns d).sansAdmission = s.sansAdmission := by
  simp only [State.aeReturns]
  repeat' split
  all_goals simp_all [foldl_sansAdmission]

theorem State.aeDelivery_sansAdmission (s : State) (d : FeederDelivery) (claim : State → State)
    (hc : ∀ t, (claim t).sansAdmission = t.sansAdmission) : (s.aeDelivery d claim).sansAdmission = s.sansAdmission := by
  simp only [State.aeDelivery]
  repeat' split
  all_goals simp_all (maxDischargeDepth := 20)

@[simp] theorem State.aeContact_sansAdmission (s : State) (f : FeederNo) (now : Contact) :
    (s.aeContact f now).sansAdmission = s.sansAdmission := by
  simp only [State.aeContact]
  repeat' split
  all_goals simp_all [foldl_sansAdmission]

@[simp] theorem State.aeGone_sansAdmission (s : State) (o : Order) :
    (s.aeGone o).sansAdmission = s.sansAdmission := by
  simp only [State.aeGone]
  repeat' split
  all_goals simp_all [foldl_sansAdmission]

@[simp] theorem State.waitExpired_sansAdmission (s : State) (i : Slot) :
    (s.waitExpired i).sansAdmission = s.sansAdmission := by
  simp only [State.waitExpired]
  repeat' split
  all_goals simp_all [foldl_sansAdmission]

@[simp] theorem State.reservationExpired_sansAdmission (s : State) (i : Slot) :
    (s.reservationExpired i).sansAdmission = s.sansAdmission := by
  simp only [State.reservationExpired]
  repeat' split
  all_goals simp_all [foldl_sansAdmission]

@[simp] theorem State.guardExpired_sansAdmission (s : State) :
    s.guardExpired.sansAdmission = s.sansAdmission := by
  simp only [State.guardExpired]
  repeat' split
  all_goals simp_all [foldl_sansAdmission]

@[simp] theorem State.walkRequest_sansAdmission (s : State) (f : FeederNo) (kw : Kw) : (s.walkRequest f kw).sansAdmission = s.sansAdmission := by
  simp only [State.walkRequest]
  split
  · split
    · rename_i u h
      obtain ⟨rfl, -⟩ := State.claim_some h
      simp
    · simp
  · simp

@[simp] theorem State.aeDark_sansAdmission (s : State) :
    s.aeDark.sansAdmission = s.sansAdmission := by
  simp only [State.aeDark]
  repeat' split
  all_goals simp_all [foldl_sansAdmission]


/-! ## Sequencer -/

/-- The state without the Genset Sequencer's records and the tellings. -/
def State.sansSequencer (s : State) : State := { s with events := [], gs := {} }

/-- What `sansSequencer` keeping says: nothing else has changed. -/
theorem State.sansSequencer_frame {s t : State} (h : t.sansSequencer = s.sansSequencer) : t = { s with events := t.events, gs := t.gs } := by
  have h_pending : t.pending = s.pending := by have e := congrArg State.pending h; exact e
  have h_clock : t.clock = s.clock := by have e := congrArg State.clock h; exact e
  have h_inReset : t.inReset = s.inReset := by have e := congrArg State.inReset h; exact e
  have h_pins : t.pins = s.pins := by have e := congrArg State.pins h; exact e
  have h_needs : t.needs = s.needs := by have e := congrArg State.needs h; exact e
  have h_ae : t.ae = s.ae := by have e := congrArg State.ae h; exact e
  have h_se : t.se = s.se := by have e := congrArg State.se h; exact e
  have h_cu : t.cu = s.cu := by have e := congrArg State.cu h; exact e
  have h_ic : t.ic = s.ic := by have e := congrArg State.ic h; exact e
  have h_flc : t.flc = s.flc := by have e := congrArg State.flc h; exact e
  have h_sp : t.sp = s.sp := by have e := congrArg State.sp h; exact e
  cases t
  simp_all

@[simp↓] theorem sansSequencer_with_events (s : State) (x : List Instr) :
    State.sansSequencer { s with events := x } = s.sansSequencer := rfl
@[simp↓] theorem sansSequencer_with_gs (s : State) (x : Sequencer) :
    State.sansSequencer { s with gs := x } = s.sansSequencer := rfl
@[simp↓] theorem sansSequencer_with_events_gs (s : State) (x : List Instr) (y : Sequencer) :
    State.sansSequencer { s with events := x, gs := y } = s.sansSequencer := rfl
@[simp↓] theorem sansSequencer_with_gs_events (s : State) (x : Sequencer) (y : List Instr) :
    State.sansSequencer { s with gs := x, events := y } = s.sansSequencer := rfl
@[simp] theorem State.setGenset_sansSequencer (s : State) (g : GensetNo) (r : Genset) : (s.setGenset g r).sansSequencer = s.sansSequencer := rfl
@[simp] theorem State.push_sansSequencer (s : State) (e : Instr) : (s.push e).sansSequencer = s.sansSequencer := rfl
@[simp] theorem State.pushAll_sansSequencer (s : State) (es : List Instr) : (s.pushAll es).sansSequencer = s.sansSequencer := rfl
@[simp] theorem State.took_sansSequencer (s : State) (e : Instr) : (s.took e).sansSequencer = s.sansSequencer := rfl
@[simp] theorem State.notice_sansSequencer (s : State) (n : Notice) : (s.notice n).sansSequencer = s.sansSequencer := rfl
@[simp] theorem State.place_sansSequencer (s : State) (r : UnitRec) (o : Order) (b : Block) (u : Bool) : (s.place r o b u).sansSequencer = s.sansSequencer := rfl
@[simp] theorem State.withdraw_sansSequencer (s : State) (r : UnitRec) (k : OrderKind) (b : Block) : (s.withdraw r k b).sansSequencer = s.sansSequencer := rfl
@[simp] theorem State.dropStop_sansSequencer (s : State) : s.dropStop.sansSequencer = s.sansSequencer := rfl
@[simp] theorem State.unqueue_sansSequencer (s : State) (g : GensetNo) : (s.unqueue g).sansSequencer = s.sansSequencer := rfl
@[simp] theorem State.setRun_sansSequencer (s : State) (l : LaneId) (r : Option Run) : (s.setRun l r).sansSequencer = s.sansSequencer := by
  cases l <;> rfl
@[simp] theorem State.notify_sansSequencer (s t : State) : (s.notify t).sansSequencer = t.sansSequencer := rfl
@[simp] theorem State.post_sansSequencer (s : State) (f : State → State) : (s.post f).sansSequencer = (f s).sansSequencer := rfl
theorem foldl_sansSequencer {α : Type} (f : State → α → State) (h : ∀ t a, (f t a).sansSequencer = t.sansSequencer) (l : List α) (s : State) :
    (l.foldl f s).sansSequencer = s.sansSequencer := by
  induction l generalizing s with
  | nil => rfl
  | cons a l ih => simp [ih, h]

@[simp] theorem State.commit_sansSequencer (s : State) (g : GensetNo) :
    (s.commit g).sansSequencer = s.sansSequencer := by
  simp only [State.commit]
  repeat' split
  all_goals simp_all [foldl_sansSequencer]

@[simp] theorem State.gsPlace_sansSequencer (s : State) (g : GensetNo) (o : Order) (urgent : Bool) :
    (s.gsPlace g o urgent).sansSequencer = s.sansSequencer := by
  simp only [State.gsPlace]
  repeat' split
  all_goals simp_all [foldl_sansSequencer]

@[simp] theorem State.tellLead_sansSequencer (s : State) (r : Run) (o : LeadOutcome) :
    (s.tellLead r o).sansSequencer = s.sansSequencer := by
  simp only [State.tellLead]
  repeat' split
  all_goals simp_all [foldl_sansSequencer]

@[simp] theorem State.failRun_sansSequencer (s : State) (lane : LaneId) (cause : FailCause) :
    (s.failRun lane cause).sansSequencer = s.sansSequencer := by
  simp only [State.failRun]
  repeat' split
  all_goals simp_all [foldl_sansSequencer]

@[simp] theorem State.endRun_sansSequencer (s : State) (lane : LaneId) (r : Run) :
    (s.endRun lane r).sansSequencer = s.sansSequencer := by
  simp only [State.endRun]
  repeat' split
  all_goals simp_all [foldl_sansSequencer]

@[simp] theorem State.breakerClosed_sansSequencer (s : State) (r : Run) :
    (s.breakerClosed r).sansSequencer = s.sansSequencer := by
  simp only [State.breakerClosed]
  repeat' split
  all_goals simp_all [foldl_sansSequencer]

@[simp] theorem State.withdrawStep_sansSequencer (s : State) (r : Run) :
    (s.withdrawStep r).sansSequencer = s.sansSequencer := by
  simp only [State.withdrawStep]
  repeat' split
  all_goals simp_all [foldl_sansSequencer]

@[simp] theorem State.completeStep_sansSequencer (s : State) (lane : LaneId) (r : Run) (k : StepKind) :
    (s.completeStep lane r k).1.sansSequencer = s.sansSequencer := by
  simp only [State.completeStep]
  repeat' split
  all_goals simp_all [foldl_sansSequencer]

@[simp] theorem State.failing_sansSequencer (s : State) (lane : LaneId) (cause : FailCause) :
    (s.failing lane cause).1.sansSequencer = s.sansSequencer := by
  simp only [State.failing]
  repeat' split
  all_goals simp_all [foldl_sansSequencer]

@[simp] theorem State.orderClose_sansSequencer (s : State) (lane : LaneId) (r : Run) (k : StepKind) (o : Order) :
    (s.orderClose lane r k o).1.sansSequencer = s.sansSequencer := by
  simp only [State.orderClose]
  split <;> simp

@[simp] theorem State.granted_sansSequencer (s : State) (lane : LaneId) (r : Run) :
    (s.granted lane r).1.sansSequencer = s.sansSequencer := by
  simp only [State.granted]
  repeat' split
  all_goals simp_all [foldl_sansSequencer]

@[simp] theorem State.askToken_sansSequencer (s : State) (lane : LaneId) (r : Run) :
    (s.askToken lane r).1.sansSequencer = s.sansSequencer := by
  simp only [State.askToken]
  repeat' split
  all_goals simp_all [foldl_sansSequencer]

@[simp] theorem State.beginStep_sansSequencer (s : State) (lane : LaneId) (r : Run) :
    (s.beginStep lane r).1.sansSequencer = s.sansSequencer := by
  simp only [State.beginStep]
  repeat' split
  all_goals simp_all [foldl_sansSequencer]

theorem State.work_sansSequencer (s : State) (w : Work) : (s.work w).1.sansSequencer = s.sansSequencer := by
  cases w <;> simp only [State.work] <;> repeat' split
  all_goals simp

theorem State.pump_sansSequencer (n : Nat) (ws : List Work) (s : State) : (State.pump n ws s).sansSequencer = s.sansSequencer := by
  induction n generalizing ws s with
  | zero => rfl
  | succ n ih => cases ws with
    | nil => rfl
    | cons w ws => simp [State.pump, ih, State.work_sansSequencer]

@[simp] theorem State.finish_sansSequencer (r : State × List Work) : (State.finish r).sansSequencer = r.1.sansSequencer := State.pump_sansSequencer _ _ _

@[simp] theorem State.takeLane_sansSequencer (s : State) (lane : LaneId) (g : GensetNo) (origin : Origin) :
    (s.takeLane lane g origin).sansSequencer = s.sansSequencer := by
  simp [State.takeLane]

@[simp] theorem State.laneReport_sansSequencer (s : State) (lane : LaneId) :
    (s.laneReport lane).sansSequencer = s.sansSequencer := by
  simp only [State.laneReport]
  repeat' split
  all_goals simp_all [foldl_sansSequencer]

@[simp] theorem State.laneRefusal_sansSequencer (s : State) (lane : LaneId) (o : Order) :
    (s.laneRefusal lane o).sansSequencer = s.sansSequencer := by
  simp only [State.laneRefusal]
  repeat' split
  all_goals simp_all [foldl_sansSequencer]

@[simp] theorem State.stepExpired_sansSequencer (s : State) (lane : LaneId) :
    (s.stepExpired lane).sansSequencer = s.sansSequencer := by
  simp only [State.stepExpired]
  repeat' split
  all_goals simp_all [foldl_sansSequencer]

@[simp] theorem State.readyExpired_sansSequencer (s : State) (lane : LaneId) :
    (s.readyExpired lane).sansSequencer = s.sansSequencer := by
  simp only [State.readyExpired]
  repeat' split
  all_goals simp_all [foldl_sansSequencer]

@[simp] theorem State.stationAbort_sansSequencer (s : State) (lane : LaneId) :
    (s.stationAbort lane).sansSequencer = s.sansSequencer := by
  simp only [State.stationAbort]
  repeat' split
  all_goals simp_all [foldl_sansSequencer]

theorem State.append_sansSequencer (wanted : Kw) (l : List GensetNo) (s : State) : (State.append wanted l s).sansSequencer = s.sansSequencer := by
  induction l generalizing s with
  | nil => rfl
  | cons g l ih => simp only [State.append]; split <;> simp [ih]

theorem State.trim_sansSequencer (wanted : Kw) (n : Nat) (s : State) : (State.trim wanted n s).sansSequencer = s.sansSequencer := by
  induction n generalizing s with
  | zero => rfl
  | succ n ih =>
    simp only [State.trim]
    repeat' split
    all_goals simp [ih]

@[simp] theorem State.judgeDemand_sansSequencer (s : State) : s.judgeDemand.sansSequencer = s.sansSequencer := by
  simp only [State.judgeDemand]
  repeat' split
  all_goals simp [State.append_sansSequencer, State.trim_sansSequencer]

@[simp] theorem State.takeHead_sansSequencer (s : State) (lane : LaneId) :
    (s.takeHead lane).sansSequencer = s.sansSequencer := by
  simp only [State.takeHead]
  repeat' split
  all_goals simp_all [foldl_sansSequencer]

@[simp] theorem State.takeUp_sansSequencer (s : State) :
    s.takeUp.sansSequencer = s.sansSequencer := by
  simp only [State.takeUp]
  repeat' split
  all_goals simp_all [foldl_sansSequencer]

@[simp] theorem State.judgeStop_sansSequencer (s : State) :
    s.judgeStop.sansSequencer = s.sansSequencer := by
  simp only [State.judgeStop]
  repeat' split
  all_goals simp_all [foldl_sansSequencer]

@[simp] theorem State.decideStop_sansSequencer (s : State) (g : GensetNo) :
    (s.decideStop g).sansSequencer = s.sansSequencer := by
  simp only [State.decideStop]
  repeat' split
  all_goals simp_all [foldl_sansSequencer]

@[simp] theorem State.enterShutting_sansSequencer (s : State) (g : GensetNo) (urgent : Bool) :
    (s.enterShutting g urgent).sansSequencer = s.sansSequencer := by
  simp only [State.enterShutting]
  repeat' split
  all_goals simp_all [foldl_sansSequencer]

@[simp] theorem State.enterCooling_sansSequencer (s : State) (g : GensetNo) :
    (s.enterCooling g).sansSequencer = s.sansSequencer := by
  simp only [State.enterCooling]
  repeat' split
  all_goals simp_all [foldl_sansSequencer]

@[simp] theorem State.enterOpening_sansSequencer (s : State) (g : GensetNo) :
    (s.enterOpening g).sansSequencer = s.sansSequencer := by
  simp only [State.enterOpening]
  repeat' split
  all_goals simp_all [foldl_sansSequencer]

@[simp] theorem State.stopReport_sansSequencer (s : State) (g : GensetNo) :
    (s.stopReport g).sansSequencer = s.sansSequencer := by
  simp only [State.stopReport]
  repeat' split
  all_goals simp_all [foldl_sansSequencer]

@[simp] theorem State.phaseEnds_sansSequencer (s : State) (g : GensetNo) :
    (s.phaseEnds g).sansSequencer = s.sansSequencer := by
  simp only [State.phaseEnds]
  repeat' split
  all_goals simp_all [foldl_sansSequencer]

theorem State.serveStarts_sansSequencer (n : Nat) (due : Bool) (s : State) :
    (State.serveStarts n due s).1.sansSequencer = s.sansSequencer := by
  induction n generalizing due s with
  | zero => rfl
  | succ n ih =>
    have hu : (if due then s.judgeDemand else s).sansSequencer = s.sansSequencer := by split <;> simp
    simp only [State.serveStarts]
    generalize (if due then s.judgeDemand else s) = u at hu ⊢
    by_cases c : u.gs.queue.length = ((u.takeHead .a).takeHead .b).gs.queue.length
    · simp only [c, if_true]
      exact hu
    · simp only [c, if_false]
      rw [ih]; simp [hu]

@[simp] theorem State.settleGensets_sansSequencer (before : State) (demand stop : Bool) (s : State) :
    (State.settleGensets before demand stop s).sansSequencer = s.sansSequencer := by
  simp only [State.settleGensets]
  repeat' split
  all_goals simp [State.serveStarts_sansSequencer]

@[simp] theorem State.settleUnknown_sansSequencer (s : State) (g : GensetNo) :
    (s.settleUnknown g).sansSequencer = s.sansSequencer := by
  simp only [State.settleUnknown]
  repeat' split
  all_goals simp_all [foldl_sansSequencer]

@[simp] theorem State.onlineTrip_sansSequencer (s : State) (g : GensetNo) :
    (s.onlineTrip g).sansSequencer = s.sansSequencer := by
  simp only [State.onlineTrip]
  repeat' split
  all_goals simp_all [foldl_sansSequencer]

@[simp] theorem State.gsReport_sansSequencer (s : State) (g : GensetNo) (report : GensetReport) :
    (s.gsReport g report).sansSequencer = s.sansSequencer := by
  simp only [State.gsReport]
  repeat' split
  all_goals simp_all [foldl_sansSequencer]

@[simp] theorem State.stopAnswered_sansSequencer (s : State) (g : GensetNo) (accepted : Bool) :
    (s.stopAnswered g accepted).sansSequencer = s.sansSequencer := by
  simp only [State.stopAnswered]
  repeat' split
  all_goals simp_all

@[simp] theorem State.gsAnswer_sansSequencer (s : State) (g : GensetNo) (a : Answered) :
    (s.gsAnswer g a).sansSequencer = s.sansSequencer := by
  simp only [State.gsAnswer]
  repeat' split
  all_goals simp_all [foldl_sansSequencer]

@[simp] theorem State.gsReply_sansSequencer (s : State) (d : GensetDelivery) :
    (s.gsReply d).sansSequencer = s.sansSequencer := by
  simp only [State.gsReply]
  repeat' split
  all_goals simp_all [foldl_sansSequencer]

@[simp] theorem State.gsLost_sansSequencer (s : State) (g : GensetNo) (now : Contact) :
    (s.gsLost g now).sansSequencer = s.sansSequencer := by
  simp only [State.gsLost]
  repeat' split
  all_goals simp_all [foldl_sansSequencer]

@[simp] theorem State.minRunExpired_sansSequencer (s : State) (g : GensetNo) :
    (s.minRunExpired g).sansSequencer = s.sansSequencer := by
  simp only [State.minRunExpired]
  repeat' split
  all_goals simp_all [foldl_sansSequencer]

@[simp] theorem State.restExpired_sansSequencer (s : State) (g : GensetNo) :
    (s.restExpired g).sansSequencer = s.sansSequencer := by
  simp only [State.restExpired]
  repeat' split
  all_goals simp_all [foldl_sansSequencer]

@[simp] theorem State.stopDelayExpired_sansSequencer (s : State) :
    s.stopDelayExpired.sansSequencer = s.sansSequencer := by
  simp only [State.stopDelayExpired]
  repeat' split
  all_goals simp_all [foldl_sansSequencer]

@[simp] theorem State.phaseLimitExpired_sansSequencer (s : State) (g : GensetNo) :
    (s.phaseLimitExpired g).sansSequencer = s.sansSequencer := by
  simp only [State.phaseLimitExpired]
  repeat' split
  all_goals simp_all [foldl_sansSequencer]

@[simp] theorem State.coolDownExpired_sansSequencer (s : State) (g : GensetNo) :
    (s.coolDownExpired g).sansSequencer = s.sansSequencer := by
  simp only [State.coolDownExpired]
  repeat' split
  all_goals simp_all [foldl_sansSequencer]

theorem State.laneEvent_sansSequencer (s : State) (f : State → State) (hf : (f s).sansSequencer = s.sansSequencer) :
    (s.laneEvent f).sansSequencer = s.sansSequencer := by
  simp [State.laneEvent, hf]

@[simp] theorem State.adoption_sansSequencer (s : State) (why : AdoptionWhy) : (s.adoption why).sansSequencer = s.sansSequencer := by
  simp only [State.adoption, State.settleGensets_sansSequencer, State.push_sansSequencer, State.post_sansSequencer]
  exact foldl_sansSequencer _ (fun _ _ => by simp) _ _

@[simp] theorem State.leadRequest_sansSequencer (s : State) (g : GensetNo) :
    (s.leadRequest g).sansSequencer = s.sansSequencer := by
  simp only [State.leadRequest]
  repeat' split
  all_goals simp_all [foldl_sansSequencer]

@[simp] theorem State.leadAbort_sansSequencer (s : State) (g : GensetNo) :
    (s.leadAbort g).sansSequencer = s.sansSequencer := by
  simp only [State.leadAbort]
  repeat' split
  all_goals simp_all [foldl_sansSequencer]

@[simp] theorem State.gsDark_sansSequencer (s : State) : s.gsDark.sansSequencer = s.sansSequencer := by
  simp only [State.gsDark]
  rw [foldl_sansSequencer _ (fun _ _ => by simp), State.dropStop_sansSequencer, sansSequencer_with_gs,
    foldl_sansSequencer _ (fun _ _ => by simp), State.post_sansSequencer, foldl_sansSequencer _ (fun _ _ => by simp)]
  simp

@[simp] theorem State.gsIsland_sansSequencer (s : State) (new : IslandState) :
    (s.gsIsland new).sansSequencer = s.sansSequencer := by
  simp only [State.gsIsland]
  repeat' split
  all_goals simp_all [foldl_sansSequencer]


/-! ## Curtailment -/

/-- The state without the Curtailment Unit's records and the tellings. -/
def State.sansCurtailment (s : State) : State := { s with events := [], cu := {} }

/-- What `sansCurtailment` keeping says: nothing else has changed. -/
theorem State.sansCurtailment_frame {s t : State} (h : t.sansCurtailment = s.sansCurtailment) : t = { s with events := t.events, cu := t.cu } := by
  have h_pending : t.pending = s.pending := by have e := congrArg State.pending h; exact e
  have h_clock : t.clock = s.clock := by have e := congrArg State.clock h; exact e
  have h_inReset : t.inReset = s.inReset := by have e := congrArg State.inReset h; exact e
  have h_pins : t.pins = s.pins := by have e := congrArg State.pins h; exact e
  have h_needs : t.needs = s.needs := by have e := congrArg State.needs h; exact e
  have h_ae : t.ae = s.ae := by have e := congrArg State.ae h; exact e
  have h_se : t.se = s.se := by have e := congrArg State.se h; exact e
  have h_gs : t.gs = s.gs := by have e := congrArg State.gs h; exact e
  have h_ic : t.ic = s.ic := by have e := congrArg State.ic h; exact e
  have h_flc : t.flc = s.flc := by have e := congrArg State.flc h; exact e
  have h_sp : t.sp = s.sp := by have e := congrArg State.sp h; exact e
  cases t
  simp_all

@[simp↓] theorem sansCurtailment_with_events (s : State) (x : List Instr) :
    State.sansCurtailment { s with events := x } = s.sansCurtailment := rfl
@[simp↓] theorem sansCurtailment_with_cu (s : State) (x : Curtailment) :
    State.sansCurtailment { s with cu := x } = s.sansCurtailment := rfl
@[simp↓] theorem sansCurtailment_with_events_cu (s : State) (x : List Instr) (y : Curtailment) :
    State.sansCurtailment { s with events := x, cu := y } = s.sansCurtailment := rfl
@[simp↓] theorem sansCurtailment_with_cu_events (s : State) (x : Curtailment) (y : List Instr) :
    State.sansCurtailment { s with cu := x, events := y } = s.sansCurtailment := rfl
@[simp] theorem State.setArray_sansCurtailment (s : State) (a : ArrayNo) (r : ArrayRecord) : (s.setArray a r).sansCurtailment = s.sansCurtailment := rfl
@[simp] theorem State.push_sansCurtailment (s : State) (e : Instr) : (s.push e).sansCurtailment = s.sansCurtailment := rfl
@[simp] theorem State.pushAll_sansCurtailment (s : State) (es : List Instr) : (s.pushAll es).sansCurtailment = s.sansCurtailment := rfl
@[simp] theorem State.took_sansCurtailment (s : State) (e : Instr) : (s.took e).sansCurtailment = s.sansCurtailment := rfl
@[simp] theorem State.notice_sansCurtailment (s : State) (n : Notice) : (s.notice n).sansCurtailment = s.sansCurtailment := rfl
@[simp] theorem State.place_sansCurtailment (s : State) (r : UnitRec) (o : Order) (b : Block) (u : Bool) : (s.place r o b u).sansCurtailment = s.sansCurtailment := rfl
@[simp] theorem State.withdraw_sansCurtailment (s : State) (r : UnitRec) (k : OrderKind) (b : Block) : (s.withdraw r k b).sansCurtailment = s.sansCurtailment := rfl
@[simp] theorem State.setReleaseDelay_sansCurtailment (s : State) (t : Timer) : (s.setReleaseDelay t).sansCurtailment = s.sansCurtailment := rfl
@[simp] theorem State.notify_sansCurtailment (s t : State) : (s.notify t).sansCurtailment = t.sansCurtailment := rfl
@[simp] theorem State.post_sansCurtailment (s : State) (f : State → State) : (s.post f).sansCurtailment = (f s).sansCurtailment := rfl
theorem foldl_sansCurtailment {α : Type} (f : State → α → State) (h : ∀ t a, (f t a).sansCurtailment = t.sansCurtailment) (l : List α) (s : State) :
    (l.foldl f s).sansCurtailment = s.sansCurtailment := by
  induction l generalizing s with
  | nil => rfl
  | cons a l ih => simp [ih, h]

@[simp] theorem State.placeHold_sansCurtailment (s : State) (a : ArrayNo) (cap : Kw) (urgent : Bool) :
    (s.placeHold a cap urgent).sansCurtailment = s.sansCurtailment := by
  simp only [State.placeHold]
  repeat' split
  all_goals simp_all [foldl_sansCurtailment]

@[simp] theorem State.placeRelease_sansCurtailment (s : State) (a : ArrayNo) :
    (s.placeRelease a).sansCurtailment = s.sansCurtailment := by
  simp only [State.placeRelease]
  repeat' split
  all_goals simp_all [foldl_sansCurtailment]

@[simp] theorem State.markLowered_sansCurtailment (s : State) (a : ArrayNo) :
    (s.markLowered a).sansCurtailment = s.sansCurtailment := by
  simp only [State.markLowered]
  repeat' split
  all_goals simp_all [foldl_sansCurtailment]

@[simp] theorem State.lower_sansCurtailment (s : State) (a : ArrayNo) :
    (s.lower a).sansCurtailment = s.sansCurtailment := by
  simp only [State.lower]
  repeat' split
  all_goals simp_all [foldl_sansCurtailment]

@[simp] theorem State.freshHold_sansCurtailment (s : State) (a : ArrayNo) :
    (s.freshHold a).sansCurtailment = s.sansCurtailment := by
  simp only [State.freshHold]
  repeat' split
  all_goals simp_all [foldl_sansCurtailment]

@[simp] theorem State.freshIfBare_sansCurtailment (s : State) (a : ArrayNo) :
    (s.freshIfBare a).sansCurtailment = s.sansCurtailment := by
  simp only [State.freshIfBare]
  repeat' split
  all_goals simp_all [foldl_sansCurtailment]

@[simp] theorem State.retarget_sansCurtailment (s : State) :
    s.retarget.sansCurtailment = s.sansCurtailment := by
  simp only [State.retarget]
  repeat' split
  all_goals simp_all [foldl_sansCurtailment]

@[simp] theorem State.workTargets_sansCurtailment (s : State) :
    s.workTargets.sansCurtailment = s.sansCurtailment := by
  simp only [State.workTargets]
  repeat' split
  all_goals simp_all [foldl_sansCurtailment]

@[simp] theorem State.judgeRelease_sansCurtailment (s : State) :
    s.judgeRelease.sansCurtailment = s.sansCurtailment := by
  simp only [State.judgeRelease]
  repeat' split
  all_goals simp_all [foldl_sansCurtailment]

@[simp] theorem State.judgeEngage_sansCurtailment (s : State) :
    s.judgeEngage.sansCurtailment = s.sansCurtailment := by
  simp only [State.judgeEngage]
  repeat' split
  all_goals simp_all [foldl_sansCurtailment]

@[simp] theorem State.judgeExposure_sansCurtailment (b s : State) :
    (State.judgeExposure b s).sansCurtailment = s.sansCurtailment := by
  unfold State.judgeExposure; split <;> simp

@[simp] theorem State.judgeCurtail_sansCurtailment (s : State) :
    s.judgeCurtail.sansCurtailment = s.sansCurtailment := by
  simp only [State.judgeCurtail]
  repeat' split
  all_goals simp_all [foldl_sansCurtailment]

@[simp] theorem State.ceilingChanged_sansCurtailment (s : State) :
    s.ceilingChanged.sansCurtailment = s.sansCurtailment := by
  simp only [State.ceilingChanged]
  repeat' split
  all_goals simp_all [foldl_sansCurtailment]

@[simp] theorem State.offer_sansCurtailment (s : State) (k : ClaimKind) (needs : List (ArrayNo × Kw)) :
    (s.offer k needs).sansCurtailment = s.sansCurtailment := by
  simp only [State.offer]
  repeat' split
  all_goals simp_all [foldl_sansCurtailment]

@[simp] theorem State.offerRelease_sansCurtailment (s : State) :
    s.offerRelease.sansCurtailment = s.sansCurtailment := by
  simp only [State.offerRelease]
  repeat' split
  all_goals simp_all [foldl_sansCurtailment]

@[simp] theorem State.releaseDelayExpired_sansCurtailment (s : State) :
    s.releaseDelayExpired.sansCurtailment = s.sansCurtailment := by
  simp only [State.releaseDelayExpired]
  repeat' split
  all_goals simp_all [foldl_sansCurtailment]

@[simp] theorem State.raiseExposure_sansCurtailment (s : State) (k : ClaimKind) (needs : List (ArrayNo × Kw)) :
    (s.raiseExposure k needs).sansCurtailment = s.sansCurtailment := by
  simp only [State.raiseExposure]
  split <;> exact foldl_sansCurtailment _ (fun _ _ => by simp) _ _

@[simp] theorem State.orderRaised_sansCurtailment (s : State) (a : ArrayNo) :
    (s.orderRaised a).sansCurtailment = s.sansCurtailment := by
  simp only [State.orderRaised]
  repeat' split
  all_goals simp_all [foldl_sansCurtailment]

@[simp] theorem State.offerWaiting_sansCurtailment (s : State) :
    (s.offerWaiting).sansCurtailment = s.sansCurtailment := by
  simp only [State.offerWaiting]
  repeat' split
  all_goals simp_all [foldl_sansCurtailment]

@[simp] theorem State.raiseAnswered_sansCurtailment (s : State) (raised : List ArrayNo) :
    (s.raiseAnswered raised).sansCurtailment = s.sansCurtailment := by
  simp only [State.raiseAnswered]
  repeat' split
  all_goals simp_all [foldl_sansCurtailment]

@[simp] theorem State.releaseArray_sansCurtailment (s : State) (a : ArrayNo) :
    (s.releaseArray a).sansCurtailment = s.sansCurtailment := by
  simp only [State.releaseArray]
  repeat' split
  all_goals simp_all [foldl_sansCurtailment]

@[simp] theorem State.releaseAnswered_sansCurtailment (s : State) (whole : Bool) (raised : List ArrayNo) :
    (s.releaseAnswered whole raised).sansCurtailment = s.sansCurtailment := by
  simp only [State.releaseAnswered]
  repeat' split
  all_goals simp_all [foldl_sansCurtailment]

@[simp] theorem State.orderCovered_sansCurtailment (s : State) (a : ArrayNo) :
    (s.orderCovered a).sansCurtailment = s.sansCurtailment := by
  simp only [State.orderCovered]
  repeat' split
  all_goals simp_all [foldl_sansCurtailment]

@[simp] theorem State.offerRaises_sansCurtailment (s : State) :
    s.offerRaises.sansCurtailment = s.sansCurtailment := by
  simp only [State.offerRaises]
  repeat' split
  all_goals simp_all [foldl_sansCurtailment]

@[simp] theorem State.renew_sansCurtailment (s : State) (a : ArrayNo) :
    (s.renew a).sansCurtailment = s.sansCurtailment := by
  simp only [State.renew]
  repeat' split
  all_goals simp_all [foldl_sansCurtailment]

@[simp] theorem State.renewals_sansCurtailment (s : State) :
    s.renewals.sansCurtailment = s.sansCurtailment := by
  simp only [State.renewals]
  repeat' split
  all_goals simp_all [foldl_sansCurtailment]

@[simp] theorem State.swap_sansCurtailment (s : State) :
    s.swap.sansCurtailment = s.sansCurtailment := by
  simp only [State.swap]
  repeat' split
  all_goals simp_all [foldl_sansCurtailment]

@[simp] theorem State.clearRefusals_sansCurtailment (s : State) :
    (s.clearRefusals).sansCurtailment = s.sansCurtailment := by
  simp only [State.clearRefusals]
  repeat' split
  all_goals simp_all [foldl_sansCurtailment]

@[simp] theorem State.orderAgain_sansCurtailment (s : State) (a : ArrayNo) :
    (s.orderAgain a).sansCurtailment = s.sansCurtailment := by
  simp only [State.orderAgain]
  repeat' split
  all_goals simp_all [foldl_sansCurtailment]

@[simp] theorem State.shareExpired_sansCurtailment (s : State) :
    s.shareExpired.sansCurtailment = s.sansCurtailment := by
  simp only [State.shareExpired]
  repeat' split
  all_goals simp_all [foldl_sansCurtailment]

@[simp] theorem State.quantumPassed_sansCurtailment (s : State) (a : ArrayNo) :
    (s.quantumPassed a).sansCurtailment = s.sansCurtailment := by
  simp only [State.quantumPassed]
  repeat' split
  all_goals simp_all [foldl_sansCurtailment]

@[simp] theorem State.holdLapsed_sansCurtailment (s : State) (a : ArrayNo) :
    (s.holdLapsed a).sansCurtailment = s.sansCurtailment := by
  simp only [State.holdLapsed]
  repeat' split
  all_goals simp_all [foldl_sansCurtailment]

@[simp] theorem State.syncOrdered_sansCurtailment (s : State) (a : ArrayNo) :
    (s.syncOrdered a).sansCurtailment = s.sansCurtailment := by
  simp only [State.syncOrdered]
  repeat' split
  all_goals simp_all [foldl_sansCurtailment]

@[simp] theorem State.cuAnswer_sansCurtailment (s : State) (a : ArrayNo) (ans : Answered) :
    (s.cuAnswer a ans).sansCurtailment = s.sansCurtailment := by
  simp only [State.cuAnswer]
  repeat' split
  all_goals simp_all [foldl_sansCurtailment]

@[simp] theorem State.becameReachable_sansCurtailment (s : State) (a : ArrayNo) :
    (s.becameReachable a).sansCurtailment = s.sansCurtailment := by
  simp only [State.becameReachable]
  repeat' split
  all_goals simp_all [foldl_sansCurtailment]

@[simp] theorem State.cuReply_sansCurtailment (s : State) (d : ArrayDelivery) :
    (s.cuReply d).sansCurtailment = s.sansCurtailment := by
  simp only [State.cuReply]
  repeat' split
  all_goals simp_all [foldl_sansCurtailment]

@[simp] theorem State.cuLost_sansCurtailment (s : State) (a : ArrayNo) (now : Contact) :
    (s.cuLost a now).sansCurtailment = s.sansCurtailment := by
  simp only [State.cuLost]
  repeat' split
  all_goals simp_all [foldl_sansCurtailment]

@[simp] theorem State.cuGone_sansCurtailment (s : State) (a : ArrayNo) :
    (s.cuGone a).sansCurtailment = s.sansCurtailment := by
  simp only [State.cuGone]
  repeat' split
  all_goals simp_all [foldl_sansCurtailment]

@[simp] theorem State.cuRun_sansCurtailment (s : State) (left : IslandState) :
    (s.cuRun left).sansCurtailment = s.sansCurtailment := by
  simp only [State.cuRun]
  repeat' split
  all_goals simp_all [foldl_sansCurtailment]

@[simp] theorem State.cuDark_sansCurtailment (s : State) : s.cuDark.sansCurtailment = s.sansCurtailment := by
  simp only [State.cuDark]
  rw [foldl_sansCurtailment _ (fun _ _ => by split <;> simp), State.retarget_sansCurtailment]
  rfl

@[simp] theorem State.cuRestore_sansCurtailment (s : State) :
    s.cuRestore.sansCurtailment = s.sansCurtailment := by
  simp only [State.cuRestore]
  repeat' split
  all_goals simp_all [foldl_sansCurtailment]

@[simp] theorem State.curtailOn_sansCurtailment (s : State) :
    s.curtailOn.sansCurtailment = s.sansCurtailment := by
  simp only [State.curtailOn]
  repeat' split
  all_goals simp_all [foldl_sansCurtailment]

@[simp] theorem State.curtailOff_sansCurtailment (s : State) :
    s.curtailOff.sansCurtailment = s.sansCurtailment := by
  simp only [State.curtailOff]
  repeat' split
  all_goals simp_all [foldl_sansCurtailment]

@[simp] theorem State.defineArray_sansCurtailment (s : State) (a : ArrayNo) (nameplate : Kw) (fallback : Kw) :
    (s.defineArray a nameplate fallback).sansCurtailment = s.sansCurtailment := by
  simp only [State.defineArray]
  repeat' split
  all_goals simp_all [foldl_sansCurtailment]


/-! ## Island -/

/-- The state without the island record, the Need Register, BUSLIVE and the tellings. -/
def State.sansIsland (s : State) : State := { s with events := [], needs := {}, ic := {}, pins := {} }

/-- What `sansIsland` keeping says: nothing else has changed. -/
theorem State.sansIsland_frame {s t : State} (h : t.sansIsland = s.sansIsland) : t = { s with events := t.events, needs := t.needs, ic := t.ic, pins := t.pins } := by
  have h_pending : t.pending = s.pending := by have e := congrArg State.pending h; exact e
  have h_clock : t.clock = s.clock := by have e := congrArg State.clock h; exact e
  have h_inReset : t.inReset = s.inReset := by have e := congrArg State.inReset h; exact e
  have h_ae : t.ae = s.ae := by have e := congrArg State.ae h; exact e
  have h_se : t.se = s.se := by have e := congrArg State.se h; exact e
  have h_gs : t.gs = s.gs := by have e := congrArg State.gs h; exact e
  have h_cu : t.cu = s.cu := by have e := congrArg State.cu h; exact e
  have h_flc : t.flc = s.flc := by have e := congrArg State.flc h; exact e
  have h_sp : t.sp = s.sp := by have e := congrArg State.sp h; exact e
  cases t
  simp_all

@[simp↓] theorem sansIsland_with_events (s : State) (x : List Instr) :
    State.sansIsland { s with events := x } = s.sansIsland := rfl
@[simp↓] theorem sansIsland_with_needs (s : State) (x : Needs) :
    State.sansIsland { s with needs := x } = s.sansIsland := rfl
@[simp↓] theorem sansIsland_with_ic (s : State) (x : Island) :
    State.sansIsland { s with ic := x } = s.sansIsland := rfl
@[simp↓] theorem sansIsland_with_pins (s : State) (x : Pins) :
    State.sansIsland { s with pins := x } = s.sansIsland := rfl
@[simp↓] theorem sansIsland_with_events_needs (s : State) (x : List Instr) (y : Needs) :
    State.sansIsland { s with events := x, needs := y } = s.sansIsland := rfl
@[simp↓] theorem sansIsland_with_events_ic (s : State) (x : List Instr) (y : Island) :
    State.sansIsland { s with events := x, ic := y } = s.sansIsland := rfl
@[simp↓] theorem sansIsland_with_events_pins (s : State) (x : List Instr) (y : Pins) :
    State.sansIsland { s with events := x, pins := y } = s.sansIsland := rfl
@[simp↓] theorem sansIsland_with_needs_events (s : State) (x : Needs) (y : List Instr) :
    State.sansIsland { s with needs := x, events := y } = s.sansIsland := rfl
@[simp↓] theorem sansIsland_with_needs_ic (s : State) (x : Needs) (y : Island) :
    State.sansIsland { s with needs := x, ic := y } = s.sansIsland := rfl
@[simp↓] theorem sansIsland_with_needs_pins (s : State) (x : Needs) (y : Pins) :
    State.sansIsland { s with needs := x, pins := y } = s.sansIsland := rfl
@[simp↓] theorem sansIsland_with_ic_events (s : State) (x : Island) (y : List Instr) :
    State.sansIsland { s with ic := x, events := y } = s.sansIsland := rfl
@[simp↓] theorem sansIsland_with_ic_needs (s : State) (x : Island) (y : Needs) :
    State.sansIsland { s with ic := x, needs := y } = s.sansIsland := rfl
@[simp↓] theorem sansIsland_with_ic_pins (s : State) (x : Island) (y : Pins) :
    State.sansIsland { s with ic := x, pins := y } = s.sansIsland := rfl
@[simp↓] theorem sansIsland_with_pins_events (s : State) (x : Pins) (y : List Instr) :
    State.sansIsland { s with pins := x, events := y } = s.sansIsland := rfl
@[simp↓] theorem sansIsland_with_pins_needs (s : State) (x : Pins) (y : Needs) :
    State.sansIsland { s with pins := x, needs := y } = s.sansIsland := rfl
@[simp↓] theorem sansIsland_with_pins_ic (s : State) (x : Pins) (y : Island) :
    State.sansIsland { s with pins := x, ic := y } = s.sansIsland := rfl
@[simp] theorem State.push_sansIsland (s : State) (e : Instr) : (s.push e).sansIsland = s.sansIsland := rfl
@[simp] theorem State.pushAll_sansIsland (s : State) (es : List Instr) : (s.pushAll es).sansIsland = s.sansIsland := rfl
@[simp] theorem State.took_sansIsland (s : State) (e : Instr) : (s.took e).sansIsland = s.sansIsland := rfl
@[simp] theorem State.notice_sansIsland (s : State) (n : Notice) : (s.notice n).sansIsland = s.sansIsland := rfl
@[simp] theorem State.place_sansIsland (s : State) (r : UnitRec) (o : Order) (b : Block) (u : Bool) : (s.place r o b u).sansIsland = s.sansIsland := rfl
@[simp] theorem State.withdraw_sansIsland (s : State) (r : UnitRec) (k : OrderKind) (b : Block) : (s.withdraw r k b).sansIsland = s.sansIsland := rfl
@[simp] theorem State.toPhase_sansIsland (s : State) (p : WalkPhase) : (s.toPhase p).sansIsland = s.sansIsland := rfl
@[simp] theorem State.setWalkPermit_sansIsland (s : State) (h : Option Handle) : (s.setWalkPermit h).sansIsland = s.sansIsland := rfl
@[simp] theorem State.notify_sansIsland (s t : State) : (s.notify t).sansIsland = t.sansIsland := rfl
@[simp] theorem State.post_sansIsland (s : State) (f : State → State) : (s.post f).sansIsland = (f s).sansIsland := rfl
@[simp] theorem State.setNeed_sansIsland (s : State) (src : NeedSource) (kw : Option Kw) : (s.setNeed src kw).sansIsland = s.sansIsland := by
  unfold State.setNeed; cases src <;> split <;> rfl
theorem foldl_sansIsland {α : Type} (f : State → α → State) (h : ∀ t a, (f t a).sansIsland = t.sansIsland) (l : List α) (s : State) :
    (l.foldl f s).sansIsland = s.sansIsland := by
  induction l generalizing s with
  | nil => rfl
  | cons a l ih => simp [ih, h]

@[simp] theorem State.enterIsland_sansIsland (s : State) (new : IslandState) :
    (s.enterIsland new).sansIsland = s.sansIsland := by
  simp only [State.enterIsland]
  repeat' split
  all_goals simp_all [foldl_sansIsland]

@[simp] theorem State.clearIcNeed_sansIsland (s : State) :
    s.clearIcNeed.sansIsland = s.sansIsland := by
  simp only [State.clearIcNeed]
  repeat' split
  all_goals simp_all [foldl_sansIsland]

@[simp] theorem State.dropWalk_sansIsland (s : State) :
    s.dropWalk.sansIsland = s.sansIsland := by
  simp only [State.dropWalk]
  repeat' split
  all_goals simp_all [foldl_sansIsland]

@[simp] theorem State.startHoldoff_sansIsland (s : State) :
    s.startHoldoff.sansIsland = s.sansIsland := by
  simp only [State.startHoldoff]
  repeat' split
  all_goals simp_all [foldl_sansIsland]

@[simp] theorem State.enterDark_sansIsland (s : State) :
    s.enterDark.sansIsland = s.sansIsland := by
  simp only [State.enterDark]
  repeat' split
  all_goals simp_all [foldl_sansIsland]

@[simp] theorem State.enterRun_sansIsland (s : State) :
    s.enterRun.sansIsland = s.sansIsland := by
  simp only [State.enterRun]
  repeat' split
  all_goals simp_all [foldl_sansIsland]

@[simp] theorem State.markSkip_sansIsland (s : State) : s.markSkip.sansIsland = s.sansIsland := rfl

@[simp] theorem State.advanced_sansIsland (s : State) :
    s.advanced.sansIsland = s.sansIsland := by
  simp only [State.advanced]
  repeat' split
  all_goals simp_all [foldl_sansIsland]

theorem State.takeEntry_sansIsland (n : Nat) (s : State) : (State.takeEntry n s).sansIsland = s.sansIsland := by
  induction n generalizing s with
  | zero => rfl
  | succ n ih =>
    simp only [State.takeEntry]
    repeat' split
    all_goals simp [ih]

@[simp] theorem State.walkOn_sansIsland (s : State) : s.walkOn.sansIsland = s.sansIsland := State.takeEntry_sansIsland _ _

@[simp] theorem State.walkAdvance_sansIsland (s : State) :
    s.walkAdvance.sansIsland = s.sansIsland := by
  simp only [State.walkAdvance]
  repeat' split
  all_goals simp_all [foldl_sansIsland]

@[simp] theorem State.startSettle_sansIsland (s : State) :
    s.startSettle.sansIsland = s.sansIsland := by
  simp only [State.startSettle]
  repeat' split
  all_goals simp_all [foldl_sansIsland]

@[simp] theorem State.resumeWalk_sansIsland (s : State) :
    s.resumeWalk.sansIsland = s.sansIsland := by
  simp only [State.resumeWalk]
  repeat' split
  all_goals simp_all [foldl_sansIsland]

@[simp] theorem State.headroomRose_sansIsland (s : State) :
    s.headroomRose.sansIsland = s.sansIsland := by
  simp only [State.headroomRose]
  repeat' split
  all_goals simp_all [foldl_sansIsland]

@[simp] theorem State.walkAnswered_sansIsland (s : State) (f : FeederNo) (kw : Kw) (answer : Option Handle) :
    (s.walkAnswered f kw answer).sansIsland = s.sansIsland := by
  simp only [State.walkAnswered]
  repeat' split
  all_goals simp_all [foldl_sansIsland]

@[simp] theorem State.walkOutcome_sansIsland (s : State) (h : Handle) (granted : Bool) :
    (s.walkOutcome h granted).sansIsland = s.sansIsland := by
  simp only [State.walkOutcome]
  repeat' split
  all_goals simp_all [foldl_sansIsland]

@[simp] theorem State.settleExpired_sansIsland (s : State) :
    s.settleExpired.sansIsland = s.sansIsland := by
  simp only [State.settleExpired]
  repeat' split
  all_goals simp_all [foldl_sansIsland]

@[simp] theorem State.restoreTimers_sansIsland (s : State) :
    s.restoreTimers.sansIsland = s.sansIsland := by
  simp only [State.restoreTimers]
  repeat' split
  all_goals simp_all [foldl_sansIsland]

@[simp] theorem State.enterRestore_sansIsland (s : State) : s.enterRestore.sansIsland = s.sansIsland := by
  simp only [State.enterRestore]
  repeat' split
  all_goals simp

@[simp] theorem State.askLead_sansIsland (s : State) (g : GensetNo) :
    (s.askLead g).sansIsland = s.sansIsland := by
  simp only [State.askLead]
  repeat' split
  all_goals simp_all [foldl_sansIsland]

@[simp] theorem State.enterRestart_sansIsland (s : State) :
    s.enterRestart.sansIsland = s.sansIsland := by
  simp only [State.enterRestart]
  repeat' split
  all_goals simp_all [foldl_sansIsland]

@[simp] theorem State.busChanged_sansIsland (s : State) (live : Bool) : (s.busChanged live).sansIsland = s.sansIsland := by
  simp only [State.busChanged]
  repeat' split
  all_goals rfl

@[simp] theorem State.deadConfirmed_sansIsland (s : State) :
    s.deadConfirmed.sansIsland = s.sansIsland := by
  simp only [State.deadConfirmed]
  repeat' split
  all_goals simp_all [foldl_sansIsland]

@[simp] theorem State.liveConfirmed_sansIsland (s : State) :
    s.liveConfirmed.sansIsland = s.sansIsland := by
  simp only [State.liveConfirmed]
  repeat' split
  all_goals simp_all [foldl_sansIsland]

@[simp] theorem State.markForeign_sansIsland (s : State) :
    s.markForeign.sansIsland = s.sansIsland := by
  simp only [State.markForeign]
  repeat' split
  all_goals simp_all [foldl_sansIsland]

@[simp] theorem State.holdoffExpired_sansIsland (s : State) :
    s.holdoffExpired.sansIsland = s.sansIsland := by
  simp only [State.holdoffExpired]
  repeat' split
  all_goals simp_all [foldl_sansIsland]

@[simp] theorem State.roundFailed_sansIsland (s : State) :
    s.roundFailed.sansIsland = s.sansIsland := by
  simp only [State.roundFailed]
  repeat' split
  all_goals simp_all [foldl_sansIsland]

@[simp] theorem State.nextLead_sansIsland (s : State) :
    s.nextLead.sansIsland = s.sansIsland := by
  simp only [State.nextLead]
  repeat' split
  all_goals simp_all [foldl_sansIsland]

@[simp] theorem State.judgeDecision_sansIsland (s : State) (d : LiveDecision) :
    (s.judgeDecision d).sansIsland = s.sansIsland := by
  simp only [State.judgeDecision]
  repeat' split
  all_goals simp_all [foldl_sansIsland]

@[simp] theorem State.leadEnded_sansIsland (s : State) (o : LeadOutcome) :
    (s.leadEnded o).sansIsland = s.sansIsland := by
  simp only [State.leadEnded]
  repeat' split
  all_goals simp_all [foldl_sansIsland]

@[simp] theorem State.adoptionAnswered_sansIsland (s : State) (why : AdoptionWhy) (adopted : List GensetNo) :
    (s.adoptionAnswered why adopted).sansIsland = s.sansIsland := by
  simp only [State.adoptionAnswered]
  repeat' split
  all_goals simp_all [foldl_sansIsland]

@[simp] theorem State.leaveSetup_sansIsland (s : State) :
    s.leaveSetup.sansIsland = s.sansIsland := by
  simp only [State.leaveSetup]
  repeat' split
  all_goals simp_all [foldl_sansIsland]

@[simp] theorem State.unadopt_sansIsland (s : State) (f : FeederNo) :
    (s.unadopt f).sansIsland = s.sansIsland := by
  simp only [State.unadopt]
  repeat' split
  all_goals simp_all [foldl_sansIsland]

@[simp] theorem State.judgeComplete_sansIsland (s : State) :
    s.judgeComplete.sansIsland = s.sansIsland := by
  simp only [State.judgeComplete]
  repeat' split
  all_goals simp_all [foldl_sansIsland]

@[simp] theorem State.quietChanged_sansIsland (s : State) (mark : QuietMark) (quiet : Bool) :
    (s.quietChanged mark quiet).sansIsland = s.sansIsland := by
  simp only [State.quietChanged]
  repeat' split
  all_goals simp_all [foldl_sansIsland]

@[simp] theorem State.beginStandDown_sansIsland (s : State) :
    s.beginStandDown.sansIsland = s.sansIsland := by
  simp only [State.beginStandDown]
  repeat' split
  all_goals simp_all [foldl_sansIsland]

@[simp] theorem State.raIsland_sansIsland (s : State) (left : IslandState) (new : IslandState) :
    (s.raIsland left new).sansIsland = s.sansIsland := by
  simp only [State.raIsland]
  repeat' split
  all_goals simp_all [foldl_sansIsland]


/-! ## Loop -/

/-- The state without the Field Loop Controller's records and the tellings. -/
def State.sansLoop (s : State) : State := { s with events := [], flc := {} }

/-- What `sansLoop` keeping says: nothing else has changed. -/
theorem State.sansLoop_frame {s t : State} (h : t.sansLoop = s.sansLoop) : t = { s with events := t.events, flc := t.flc } := by
  have h_pending : t.pending = s.pending := by have e := congrArg State.pending h; exact e
  have h_clock : t.clock = s.clock := by have e := congrArg State.clock h; exact e
  have h_inReset : t.inReset = s.inReset := by have e := congrArg State.inReset h; exact e
  have h_pins : t.pins = s.pins := by have e := congrArg State.pins h; exact e
  have h_needs : t.needs = s.needs := by have e := congrArg State.needs h; exact e
  have h_ae : t.ae = s.ae := by have e := congrArg State.ae h; exact e
  have h_se : t.se = s.se := by have e := congrArg State.se h; exact e
  have h_gs : t.gs = s.gs := by have e := congrArg State.gs h; exact e
  have h_cu : t.cu = s.cu := by have e := congrArg State.cu h; exact e
  have h_ic : t.ic = s.ic := by have e := congrArg State.ic h; exact e
  have h_sp : t.sp = s.sp := by have e := congrArg State.sp h; exact e
  cases t
  simp_all

@[simp↓] theorem sansLoop_with_events (s : State) (x : List Instr) :
    State.sansLoop { s with events := x } = s.sansLoop := rfl
@[simp↓] theorem sansLoop_with_flc (s : State) (x : FieldLoop) :
    State.sansLoop { s with flc := x } = s.sansLoop := rfl
@[simp↓] theorem sansLoop_with_events_flc (s : State) (x : List Instr) (y : FieldLoop) :
    State.sansLoop { s with events := x, flc := y } = s.sansLoop := rfl
@[simp↓] theorem sansLoop_with_flc_events (s : State) (x : FieldLoop) (y : List Instr) :
    State.sansLoop { s with flc := x, events := y } = s.sansLoop := rfl
@[simp] theorem State.setEntry_sansLoop (s : State) (u : Addr) (r : UnitEntry) : (s.setEntry u r).sansLoop = s.sansLoop := rfl
@[simp] theorem State.push_sansLoop (s : State) (e : Instr) : (s.push e).sansLoop = s.sansLoop := rfl
@[simp] theorem State.pushAll_sansLoop (s : State) (es : List Instr) : (s.pushAll es).sansLoop = s.sansLoop := rfl
@[simp] theorem State.took_sansLoop (s : State) (e : Instr) : (s.took e).sansLoop = s.sansLoop := rfl
@[simp] theorem State.notice_sansLoop (s : State) (n : Notice) : (s.notice n).sansLoop = s.sansLoop := rfl
@[simp] theorem State.place_sansLoop (s : State) (r : UnitRec) (o : Order) (b : Block) (u : Bool) : (s.place r o b u).sansLoop = s.sansLoop := rfl
@[simp] theorem State.withdraw_sansLoop (s : State) (r : UnitRec) (k : OrderKind) (b : Block) : (s.withdraw r k b).sansLoop = s.sansLoop := rfl
@[simp] theorem State.toLoop_sansLoop (s : State) (l : Loop) : (s.toLoop l).sansLoop = s.sansLoop := rfl
@[simp] theorem State.setUrgent_sansLoop (s : State) (l : List Addr) : (s.setUrgent l).sansLoop = s.sansLoop := rfl
@[simp] theorem State.notify_sansLoop (s t : State) : (s.notify t).sansLoop = t.sansLoop := rfl
@[simp] theorem State.post_sansLoop (s : State) (f : State → State) : (s.post f).sansLoop = (f s).sansLoop := rfl
theorem foldl_sansLoop {α : Type} (f : State → α → State) (h : ∀ t a, (f t a).sansLoop = t.sansLoop) (l : List α) (s : State) :
    (l.foldl f s).sansLoop = s.sansLoop := by
  induction l generalizing s with
  | nil => rfl
  | cons a l ih => simp [ih, h]

@[simp] theorem State.unurge_sansLoop (s : State) (u : Addr) :
    (s.unurge u).sansLoop = s.sansLoop := by
  simp only [State.unurge]
  repeat' split
  all_goals simp_all [foldl_sansLoop]

@[simp] theorem State.startGap_sansLoop (s : State) :
    s.startGap.sansLoop = s.sansLoop := by
  simp only [State.startGap]
  repeat' split
  all_goals simp_all [foldl_sansLoop]

@[simp] theorem State.tellGone_sansLoop (s : State) (o : SlotOrder) (r : UnitRec) (why : GoneCause) :
    (s.tellGone o r why).sansLoop = s.sansLoop := by
  simp only [State.tellGone]
  repeat' split
  all_goals simp_all [foldl_sansLoop]

@[simp] theorem State.beginTurn_sansLoop (s : State) (u : Addr) (urgent : Bool) :
    (s.beginTurn u urgent).sansLoop = s.sansLoop := by
  simp only [State.beginTurn]
  repeat' split
  all_goals simp_all [foldl_sansLoop]

theorem State.pollTurn_sansLoop (n : Nat) (s : State) : (State.pollTurn n s).sansLoop = s.sansLoop := by
  induction n generalizing s with
  | zero => rfl
  | succ n ih =>
    simp only [State.pollTurn]
    repeat' split
    all_goals simp [ih]

@[simp] theorem State.chooseTurn_sansLoop (s : State) : s.chooseTurn.sansLoop = s.sansLoop := by
  simp only [State.chooseTurn]
  split <;> simp [State.pollTurn_sansLoop]

@[simp] theorem State.wakeLoop_sansLoop (s : State) :
    s.wakeLoop.sansLoop = s.sansLoop := by
  simp only [State.wakeLoop]
  repeat' split
  all_goals simp_all [foldl_sansLoop]

@[simp] theorem State.emptySlot_sansLoop (s : State) (u : Addr) :
    (s.emptySlot u).sansLoop = s.sansLoop := by
  simp only [State.emptySlot]
  repeat' split
  all_goals simp_all [foldl_sansLoop]

@[simp] theorem State.placed_sansLoop (s : State) (p : Placement) :
    (s.placed p).sansLoop = s.sansLoop := by
  simp only [State.placed]
  repeat' split
  all_goals simp_all [foldl_sansLoop]

@[simp] theorem State.withdrawn_sansLoop (s : State) (w : Withdrawal) :
    (s.withdrawn w).sansLoop = s.sansLoop := by
  simp only [State.withdrawn]
  repeat' split
  all_goals simp_all [foldl_sansLoop]

@[simp] theorem State.rejudge_sansLoop (s : State) (t : Turn) :
    (s.rejudge t).sansLoop = s.sansLoop := by
  simp only [State.rejudge]
  repeat' split
  all_goals simp_all [foldl_sansLoop]

@[simp] theorem State.missedTurn_sansLoop (s : State) (t : Turn) :
    (s.missedTurn t).sansLoop = s.sansLoop := by
  simp only [State.missedTurn]
  repeat' split
  all_goals simp_all [foldl_sansLoop]

@[simp] theorem State.turnMissed_sansLoop (s : State) (t : Turn) :
    (s.turnMissed t).sansLoop = s.sansLoop := by
  simp only [State.turnMissed]
  repeat' split
  all_goals simp_all [foldl_sansLoop]

@[simp] theorem State.validTurn_sansLoop (s : State) (t : Turn) (r : UnitRec) (p : ReplyParts) :
    (s.validTurn t r p).sansLoop = s.sansLoop := by
  simp only [State.validTurn]
  repeat' split
  all_goals simp_all [foldl_sansLoop]

@[simp] theorem State.replyTaken_sansLoop (s : State) (chars : List Byte) :
    (s.replyTaken chars).sansLoop = s.sansLoop := by
  simp only [State.replyTaken]
  repeat' split
  all_goals simp_all [foldl_sansLoop]

@[simp] theorem State.frameLeft_sansLoop (s : State) :
    s.frameLeft.sansLoop = s.sansLoop := by
  simp only [State.frameLeft]
  repeat' split
  all_goals simp_all [foldl_sansLoop]

@[simp] theorem State.replyBegins_sansLoop (s : State) :
    s.replyBegins.sansLoop = s.sansLoop := by
  simp only [State.replyBegins]
  repeat' split
  all_goals simp_all [foldl_sansLoop]

@[simp] theorem State.receptionEnds_sansLoop (s : State) :
    s.receptionEnds.sansLoop = s.sansLoop := by
  simp only [State.receptionEnds]
  repeat' split
  all_goals simp_all [foldl_sansLoop]

@[simp] theorem State.windowExpired_sansLoop (s : State) :
    s.windowExpired.sansLoop = s.sansLoop := by
  simp only [State.windowExpired]
  repeat' split
  all_goals simp_all [foldl_sansLoop]

@[simp] theorem State.gapExpired_sansLoop (s : State) :
    s.gapExpired.sansLoop = s.sansLoop := by
  simp only [State.gapExpired]
  repeat' split
  all_goals simp_all [foldl_sansLoop]

@[simp] theorem State.setPolls_sansLoop (s : State) (l : List Addr) : (s.setPolls l).sansLoop = s.sansLoop := by
  simp [State.setPolls]

end Sys2Proof.Machine
end

