-- ==== Sys2Proof/Laws/Answers.lean ====
section
/-! SUPPORT. What an event of a block and a station command answer outside a reset, in one equation each; and that a tick and
the resets keep the lists exact. -/

namespace Sys2Proof.Machine

/-- An event outside a reset is the block's operation on the state with the telling answered. -/
theorem State.taking_run {s : State} (c : Instr) (f : State → State) (h : s.inReset = false) :
    s.taking c f = .next (f (s.took c)) := by
  simp [State.taking, h]

/-- An event answers a next state always. -/
theorem State.taking_next (s : State) (c : Instr) (f : State → State) :
    s.taking c f = .next (if s.inReset then s else f (s.took c)) := rfl

/-- A station command outside a reset is its result, with the reply held. -/
theorem State.station_run {s : State} (i : Instr) (f : State → Result) (h : s.inReset = false) :
    s.station i f = .next ((f (s.took i)).state.hold ((f (s.took i)).toReply (requestCode i))) := by
  simp [State.station, State.taking, h]

/-- A DONE result. -/
theorem done_run (code : Byte) (p : List Byte) (s : State) :
    (done p s).state.hold ((done p s).toReply code) = s.replied code p := rfl

/-- A refused result. -/
theorem refuse_run (code : Byte) (r : Reason) (s : State) :
    (refuse r s).state.hold ((refuse r s).toReply code) = s.repliedRefused code r := rfl

/-- A table through a function, read at one place. -/
theorem getElem_mapTable {α : Type} {n : Nat} (f : Fin n → α → α) (v : Vector α n) (i : Fin n) :
    (mapTable f v)[i] = f i v[i] := by
  simp [mapTable]

/-- A permit a millisecond later. -/
theorem State.tick_permit (s : State) (i : Slot) : s.tick.permit i = (s.permit i).ticked := by
  have : s.tick.ae.permits = mapTable (fun _ p => p.ticked) s.ae.permits := rfl
  rw [State.permit, this, getElem_mapTable]; rfl

/-- A tick moves no permit from its state. -/
theorem State.tick_listsExact (s : State) (h : s.listsExact) : s.tick.listsExact := by
  have hw : s.tick.ae.waitQueue = s.ae.waitQueue := by simp only [State.tick, State.pushAll_ae]
  have hr : s.tick.ae.releaseList = s.ae.releaseList := by simp only [State.tick, State.pushAll_ae]
  have hs : s.tick.se.shedList = s.se.shedList := by simp only [State.tick, State.pushAll_se]
  exact State.listsExact_congr h (fun i => by simp only [State.tick_permit, Permit.ticked]) hw hr hs

theorem State.tick_settings (s : State) : s.tick.sp = s.sp ∧ s.tick.flc.pollList = s.flc.pollList
    ∧ s.tick.ic.leadOrder = s.ic.leadOrder ∧ s.tick.ic.restoreList = s.ic.restoreList := by
  simp only [State.tick, State.pushAll_sp, State.pushAll_flc, State.pushAll_ic, and_self]

/-- A permit after SOFT RESET. -/
theorem State.softReset_permit (s : State) (i : Slot) : s.softReset.permit i = (s.permit i).softened := by
  have : s.softReset.ae.permits = mapTable (fun _ p => p.softened) s.ae.permits := rfl
  rw [State.permit, this, getElem_mapTable]; rfl

/-- A reset's lists are empty and its permits FREE. -/
@[simp] theorem State.softReset_listsExact (s : State) : s.softReset.listsExact := by
  have h : ∀ i, (s.softReset.permit i).state = .free := by
    intro i
    rw [State.softReset_permit]
    unfold Permit.softened
    split
    · assumption
    · rfl
  refine ⟨⟨List.nodup_nil, fun i => ?_⟩, ⟨List.nodup_nil, fun i => ?_⟩, List.nodup_nil, fun i => ?_⟩ <;> rw [h i] <;>
    simp [State.softReset]

theorem State.reset_listsExact : State.reset.listsExact := by
  have h : ∀ i, (State.reset.permit i).state = .free := by decide
  refine ⟨⟨List.nodup_nil, fun i => ?_⟩, ⟨List.nodup_nil, fun i => ?_⟩, List.nodup_nil, fun i => ?_⟩ <;> rw [h i] <;>
    simp [State.reset]

/-- Soundness reads the fixed parts and the lists alone. -/
theorem State.sound_of {s t : State} (h : s.sound) (e : t.sp.settings = s.sp.settings)
    (p : t.flc.pollList = s.flc.pollList) (l : t.ic.leadOrder = s.ic.leadOrder)
    (w : t.ic.restoreList.map RestoreEntry.feeder = s.ic.restoreList.map RestoreEntry.feeder) (x : t.listsExact) :
    t.sound := by
  obtain ⟨hs, ⟨hp, hl, hw⟩, -⟩ := h
  refine ⟨fun st => ?_, ⟨by rw [p]; exact hp, by rw [l]; exact hl, ?_, by rw [w]; exact hw.2⟩, x⟩
  · have := hs st
    simpa [State.setting, e] using this
  · have := congrArg List.length w
    simp only [List.length_map] at this
    rw [this]; exact hw.1

/-- An operation that keeps the fixed parts and the exact lists keeps the state sound. -/
theorem State.sound_of_fixed {s t : State} (h : s.sound) (e : t.fixed = s.fixed) (x : t.listsExact) : t.sound :=
  State.sound_of h (congrArg Fixed.settings e) (congrArg Fixed.polls e) (congrArg Fixed.leads e) (congrArg Fixed.walk e) x

/-- A setting written in its range leaves every setting in its range. -/
theorem State.putSetting_inRange {s : State} (h : s.settingsInRange) {st : Setting} {v : Nat} (hv : st.inRange v = true) :
    (s.putSetting st v).settingsInRange := by
  intro k
  rw [State.setting_putSetting]
  split
  · rename_i e; subst e; exact hv
  · exact h k

/-! ## The transactions and the resets -/

@[simp] theorem State.setCs_fixed (s : State) (low : Bool) : (s.setCs low).fixed = s.fixed := rfl
@[simp] theorem State.beginTransaction_fixed (s : State) : s.beginTransaction.fixed = s.fixed := rfl
@[simp] theorem State.answerError_fixed (s : State) (st : Status) (c : Byte) : (s.answerError st c).fixed = s.fixed := rfl
@[simp] theorem State.setCs_listsExact (s : State) (low : Bool) : (s.setCs low).listsExact ↔ s.listsExact := Iff.rfl
@[simp] theorem State.beginTransaction_listsExact (s : State) : s.beginTransaction.listsExact ↔ s.listsExact := Iff.rfl
@[simp] theorem State.answerError_listsExact (s : State) (st : Status) (c : Byte) :
    (s.answerError st c).listsExact ↔ s.listsExact := Iff.rfl

@[simp] theorem State.csFalls_fixed (s : State) : s.csFalls.fixed = s.fixed := by
  unfold State.csFalls; split <;> simp

@[simp] theorem State.csFalls_listsExact (s : State) (h : s.listsExact) : s.csFalls.listsExact := by
  unfold State.csFalls; split <;> simp [h]

@[simp] theorem State.judgeRequest_fixed (s : State) (frame : List Byte) : (s.judgeRequest frame).fixed = s.fixed := by
  simp only [State.judgeRequest]
  repeat' split
  all_goals simp

@[simp] theorem State.judgeRequest_listsExact (s : State) (frame : List Byte) (h : s.listsExact) :
    (s.judgeRequest frame).listsExact := by
  simp only [State.judgeRequest]
  repeat' split
  all_goals simp [h]

@[simp] theorem State.csRises_fixed (s : State) (mosi : List Byte) : (s.csRises mosi).fixed = s.fixed := by
  simp only [State.csRises]
  repeat' split
  all_goals simp

@[simp] theorem State.csRises_listsExact (s : State) (mosi : List Byte) (h : s.listsExact) : (s.csRises mosi).listsExact := by
  simp only [State.csRises]
  repeat' split
  all_goals simp (maxDischargeDepth := 10) [h]

@[simp] theorem State.softReset_fixed (s : State) : s.softReset.fixed = s.fixed := by
  simp [State.softReset, State.fixed, Function.comp_def, RestoreEntry.unskipped]

/-- The state after reset is sound. -/
theorem State.hardReset_sound (s : State) : s.hardReset.sound := by
  have e : s.hardReset.sp.settings = settingDefaults := by simp only [State.hardReset, State.reset]
  have p : s.hardReset.flc.pollList = [] := by simp only [State.hardReset, State.reset]
  have l : s.hardReset.ic.leadOrder = [] := by simp only [State.hardReset, State.reset]
  have w : s.hardReset.ic.restoreList = [] := by simp only [State.hardReset, State.reset]
  refine ⟨fun st => ?_, ⟨by simp [p], by simp [l], by simp [w]⟩, ?_⟩
  · rw [State.setting, e]; cases st <;> decide
  · exact State.listsExact_congr State.reset_listsExact (fun _ => rfl) rfl rfl rfl

end Sys2Proof.Machine
end

