-- ==== Sys2Proof/Laws/Told.lean ====
section
/-! SUPPORT. Tellings are only added: what a block has told stays told through every operation, until an event takes it. -/

set_option linter.unusedSimpArgs false
set_option linter.unusedTactic false
set_option linter.unreachableTactic false
set_option linter.unnecessarySimpa false

namespace Sys2Proof.Machine

/-- A telling is on its way. -/
def State.told (s : State) (x : Instr) : Prop := x ∈ s.events

@[simp↓] theorem told_with_pins (s : State) (y : Pins) (x : Instr) : State.told { s with pins := y } x ↔ s.told x := Iff.rfl
@[simp↓] theorem told_with_needs (s : State) (y : Needs) (x : Instr) : State.told { s with needs := y } x ↔ s.told x := Iff.rfl
@[simp↓] theorem told_with_ae (s : State) (y : Admission) (x : Instr) : State.told { s with ae := y } x ↔ s.told x := Iff.rfl
@[simp↓] theorem told_with_se (s : State) (y : Shedding) (x : Instr) : State.told { s with se := y } x ↔ s.told x := Iff.rfl
@[simp↓] theorem told_with_se_ae (s : State) (y : Shedding) (z : Admission) (x : Instr) :
    State.told { s with se := y, ae := z } x ↔ s.told x := Iff.rfl
@[simp↓] theorem told_with_gs (s : State) (y : Sequencer) (x : Instr) : State.told { s with gs := y } x ↔ s.told x := Iff.rfl
@[simp↓] theorem told_with_cu (s : State) (y : Curtailment) (x : Instr) : State.told { s with cu := y } x ↔ s.told x := Iff.rfl
@[simp↓] theorem told_with_ic (s : State) (y : Island) (x : Instr) : State.told { s with ic := y } x ↔ s.told x := Iff.rfl
@[simp↓] theorem told_with_flc (s : State) (y : FieldLoop) (x : Instr) : State.told { s with flc := y } x ↔ s.told x := Iff.rfl
@[simp↓] theorem told_with_sp (s : State) (y : Port) (x : Instr) : State.told { s with sp := y } x ↔ s.told x := Iff.rfl

@[simp] theorem State.push_told (s : State) (e x : Instr) : (s.push e).told x ↔ s.told x ∨ x = e := by simp [State.told]
@[simp] theorem State.pushAll_told (s : State) (es : List Instr) (x : Instr) :
    (s.pushAll es).told x ↔ s.told x ∨ x ∈ es := by simp [State.told]
@[simp] theorem State.notice_told (s : State) (n : Notice) (x : Instr) :
    (s.notice n).told x ↔ s.told x ∨ x = .noticeRaise n := by simp [State.told]
@[simp] theorem State.place_told (s : State) (r : UnitRec) (o : Order) (b : Block) (u : Bool) (x : Instr) :
    (s.place r o b u).told x ↔ s.told x ∨ x = .orderPlacement { target := r, order := o, owner := b, urgent := u } := by
  simp [State.told]
@[simp] theorem State.withdraw_told (s : State) (r : UnitRec) (k : OrderKind) (b : Block) (x : Instr) :
    (s.withdraw r k b).told x ↔ s.told x ∨ x = .orderWithdrawal { target := r, kind := k, by_ := b } := by
  simp [State.told]
@[simp] theorem State.notify_told (s t : State) (x : Instr) : (s.notify t).told x ↔ t.told x ∨ x ∈ updates s t := by
  simp [State.notify]
@[simp] theorem State.post_told (s : State) (f : State → State) (x : Instr) :
    (s.post f).told x ↔ (f s).told x ∨ x ∈ updates s (f s) := by simp [State.post]
@[simp] theorem State.setNeed_told (s : State) (source : NeedSource) (kw : Option Kw) {x : Instr} (e₀ : s.told x) :
    (s.setNeed source kw).told x := by
  unfold State.setNeed; cases source <;> split <;> first | exact List.mem_append_left _ e₀ | exact e₀
@[simp] theorem State.passFeeder_told (s : State) (i : Slot) (old p : Permit) (x : Instr) :
    (s.passFeeder i old p).told x ↔ s.told x := by simp [State.told]
@[simp] theorem State.relist_told (s : State) (i : Slot) (a b : PermitState) (x : Instr) :
    (s.relist i a b).told x ↔ s.told x := by simp [State.told]
@[simp] theorem State.setPermit_told (s : State) (i : Slot) (p : Permit) (x : Instr) :
    (s.setPermit i p).told x ↔ s.told x := Iff.rfl
@[simp] theorem State.burn_told (s : State) (i : Slot) (x : Instr) : (s.burn i).told x ↔ s.told x := Iff.rfl
@[simp] theorem State.enter_told (s : State) (i : Slot) (p : Permit) {x : Instr} (e₀ : s.told x) : (s.enter i p).told x := by
  simp only [State.enter]
  split <;> simp [e₀]

theorem foldl_told {α : Type} {x : Instr} (f : State → α → State) (h : ∀ t a, t.told x → (f t a).told x) (l : List α)
    (s : State) (e : s.told x) : (l.foldl f s).told x := by
  induction l generalizing s with
  | nil => exact e
  | cons a l ih => exact ih _ (h _ _ e)

@[simp] theorem State.setFeeder_told (s : State) {x : Instr} (f : FeederNo) (r : Feeder) : (s.setFeeder f r).told x ↔ s.told x := Iff.rfl

@[simp] theorem State.setGenset_told (s : State) {x : Instr} (g : GensetNo) (r : Genset) : (s.setGenset g r).told x ↔ s.told x := Iff.rfl

@[simp] theorem State.setArray_told (s : State) {x : Instr} (a : ArrayNo) (r : ArrayRecord) : (s.setArray a r).told x ↔ s.told x := Iff.rfl

@[simp] theorem State.setEntry_told (s : State) {x : Instr} (u : Addr) (r : UnitEntry) : (s.setEntry u r).told x ↔ s.told x := Iff.rfl

@[simp] theorem State.putSetting_told (s : State) {x : Instr} (st : Setting) (v : Nat) :
    (s.putSetting st v).told x ↔ s.told x := Iff.rfl

@[simp] theorem State.hold_told (s : State) {x : Instr} (r : Reply) : (s.hold r).told x ↔ s.told x := Iff.rfl

@[simp] theorem State.toLoop_told (s : State) {x : Instr} (l : Loop) : (s.toLoop l).told x ↔ s.told x := Iff.rfl

@[simp] theorem State.setUrgent_told (s : State) {x : Instr} (l : List Addr) : (s.setUrgent l).told x ↔ s.told x := Iff.rfl

@[simp] theorem State.endFlight_told (s : State) {x : Instr} : s.endFlight.told x ↔ s.told x := Iff.rfl

@[simp] theorem State.startGuard_told (s : State) {x : Instr} : s.startGuard.told x ↔ s.told x := Iff.rfl

@[simp] theorem State.arrive_told (s : State) {x : Instr} : s.arrive.told x ↔ s.told x := Iff.rfl

@[simp] theorem State.dropStop_told (s : State) {x : Instr} : s.dropStop.told x ↔ s.told x := Iff.rfl

@[simp] theorem State.unqueue_told (s : State) {x : Instr} (g : GensetNo) : (s.unqueue g).told x ↔ s.told x := Iff.rfl

@[simp] theorem State.setReleaseDelay_told (s : State) {x : Instr} (t : Timer) : (s.setReleaseDelay t).told x ↔ s.told x := Iff.rfl

@[simp] theorem State.toPhase_told (s : State) {x : Instr} (p : WalkPhase) : (s.toPhase p).told x ↔ s.told x := Iff.rfl

@[simp] theorem State.setWalkPermit_told (s : State) {x : Instr} (h : Option Handle) : (s.setWalkPermit h).told x ↔ s.told x := Iff.rfl

@[simp] theorem State.raiseFlag_told (s : State) {x : Instr} (n : Notice) : (s.raiseFlag n).told x ↔ s.told x := Iff.rfl

@[simp] theorem State.clearFlags_told (s : State) {x : Instr} : s.clearFlags.told x ↔ s.told x := Iff.rfl

@[simp] theorem State.setRun_told (s : State) {x : Instr} (l : LaneId) (r : Option Run) :
    (s.setRun l r).told x ↔ s.told x := by
  cases l <;> exact Iff.rfl

/-! ## Account -/

/-! ## Permits -/

@[simp] theorem State.freed_told (s : State) (i : Slot) {x : Instr} (e₀ : s.told x) : (s.freed i).told x := by
  simp only [State.freed]
  repeat' split
  all_goals simp_all +contextual (maxDischargeDepth := 20) [foldl_told]

@[simp] theorem State.free_told (s : State) (i : Slot) {x : Instr} (e₀ : s.told x) : (s.free i).told x := by
  simp only [State.free]
  repeat' split
  all_goals simp_all +contextual (maxDischargeDepth := 20) [foldl_told]

@[simp] theorem State.revoke_told (s : State) (i : Slot) (reason : RevokeReason) {x : Instr} (e₀ : s.told x) : (s.revoke i reason).told x := by
  simp only [State.revoke]
  repeat' split
  all_goals simp_all +contextual (maxDischargeDepth := 20) [foldl_told]

/-! ## Service -/

@[simp] theorem State.aePlace_told (s : State) (f : FeederNo) (o : Order) {x : Instr} (e₀ : s.told x) : (s.aePlace f o).told x := by
  simp only [State.aePlace]
  repeat' split
  all_goals simp_all +contextual (maxDischargeDepth := 20) [foldl_told]

@[simp] theorem State.aeEmpty_told (s : State) (f : FeederNo) {x : Instr} (e₀ : s.told x) : (s.aeEmpty f).told x := by
  simp only [State.aeEmpty]
  repeat' split
  all_goals simp_all +contextual (maxDischargeDepth := 20) [foldl_told]

@[simp] theorem State.confirmGrant_told (s : State) (i : Slot) {x : Instr} (e₀ : s.told x) : (s.confirmGrant i).told x := by
  simp only [State.confirmGrant]
  repeat' split
  all_goals simp_all +contextual (maxDischargeDepth := 20) [foldl_told]

@[simp] theorem State.judgeNeed_told (s : State) {x : Instr} (e₀ : s.told x) : s.judgeNeed.told x := by
  simp only [State.judgeNeed]
  repeat' split
  all_goals simp_all +contextual (maxDischargeDepth := 20) [foldl_told]

@[simp] theorem State.serveCandidate_told (s : State) {x : Instr} (e₀ : s.told x) : s.serveCandidate.told x := by
  have e₁ : State.told { s with ae := { s.ae with candidate := none } } x := e₀
  simp only [State.serveCandidate]
  split
  · exact e₀
  · split
    · simp [e₀]
    · split
      · split
        · rename_i t h
          obtain ⟨rfl, -⟩ := State.claim_some h
          simp [State.enter_told _ _ _ e₁]
        · simp [e₀]
      · simp [e₀]

@[simp] theorem State.named?_told (s : State) (h : Handle) {x : Instr} (e₀ : s.told x) : (s.named? h).told x := by
  simp only [State.named?]
  repeat' split
  all_goals simp_all +contextual (maxDischargeDepth := 20) [foldl_told]

@[simp] theorem State.serveRelease_told (s : State) {x : Instr} (e₀ : s.told x) : s.serveRelease.told x := by
  simp only [State.serveRelease]
  repeat' split
  all_goals simp_all +contextual (maxDischargeDepth := 20) [foldl_told]

/-! ## Shed -/

theorem State.serveQueue_told (n : Nat) (s : State) {x : Instr} (e₀ : s.told x) : (State.serveQueue n s).told x := by
  induction n generalizing s with
  | zero => exact e₀
  | succ n ih =>
    simp only [State.serveQueue]
    split
    · exact e₀
    · split
      · rename_i t h
        obtain ⟨rfl, -⟩ := State.claim_some h
        exact ih _ (by simp (maxDischargeDepth := 20) [e₀])
      · exact e₀

@[simp] theorem State.serve_told (s : State) {x : Instr} (e₀ : s.told x) : s.serve.told x := by
  simp only [State.serve]
  repeat' split
  all_goals simp_all (maxDischargeDepth := 20) [State.serveQueue_told]

@[simp] theorem State.settleAdmission_told (before after : State) {x : Instr} (e₀ : after.told x) :
    (State.settleAdmission before after).told x := by
  simp only [State.settleAdmission]
  repeat' split
  all_goals simp_all (maxDischargeDepth := 20)

theorem State.decideRequest_told (s : State) (holder : Holder) (cls : Nat) (kw draw : Kw) (mayWait : Bool)
    (wait : Ms) (expiry : Option Nat) {x : Instr} (e₀ : s.told x) :
    (s.decideRequest holder cls kw draw mayWait wait expiry).2.told x := by
  simp only [State.decideRequest]
  split
  · exact e₀
  · rename_i i hi
    have hb : (s.arrive.burn i).told x := e₀
    split
    · rename_i u h
      split at h
      · cases h
      · obtain ⟨rfl, -⟩ := State.claim_some h
        simp (maxDischargeDepth := 20) [e₀]
    · repeat' split
      all_goals simp (maxDischargeDepth := 20) [e₀, hb]

@[simp] theorem State.shedTo_told (s : State) (st : ShedState) {x : Instr} (e₀ : s.told x) : (s.shedTo st).told x := by
  simp only [State.shedTo]
  repeat' split
  all_goals simp_all +contextual (maxDischargeDepth := 20) [foldl_told]

@[simp] theorem State.select_told (s : State) {x : Instr} (e₀ : s.told x) : s.select.told x := by
  simp only [State.select]
  repeat' split
  all_goals simp_all +contextual (maxDischargeDepth := 20) [foldl_told]

@[simp] theorem State.judgeCandidate_told (s : State) {x : Instr} (e₀ : s.told x) : s.judgeCandidate.told x := by
  simp only [State.judgeCandidate]
  repeat' split
  all_goals simp_all +contextual (maxDischargeDepth := 20) [foldl_told]

@[simp] theorem State.judgeShed_told (s : State) {x : Instr} (e₀ : s.told x) : s.judgeShed.told x := by
  simp only [State.judgeShed]
  repeat' split
  all_goals simp_all +contextual (maxDischargeDepth := 20) [foldl_told]

@[simp] theorem State.reselect_told (s : State) {x : Instr} (e₀ : s.told x) : s.reselect.told x := by
  simp only [State.reselect]
  repeat' split
  all_goals simp_all +contextual (maxDischargeDepth := 20) [foldl_told]

@[simp] theorem State.openUnlessHeld_told (s : State) (f : FeederNo) {x : Instr} (e₀ : s.told x) : (s.openUnlessHeld f).told x := by
  simp only [State.openUnlessHeld]
  repeat' split
  all_goals simp_all +contextual (maxDischargeDepth := 20) [foldl_told]

@[simp] theorem State.noteFeeder_told (s : State) (f : FeederNo) (r : FeederReport) {x : Instr} (e₀ : s.told x) : (s.noteFeeder f r).told x := by
  simp only [State.noteFeeder]
  repeat' split
  all_goals simp_all +contextual (maxDischargeDepth := 20) [foldl_told]

@[simp] theorem State.answerClosed_told (s : State) (f : FeederNo) (r : FeederReport) {x : Instr} (e₀ : s.told x) : (s.answerClosed f r).told x := by
  simp only [State.answerClosed]
  repeat' split
  all_goals simp_all +contextual (maxDischargeDepth := 20) [foldl_told]

@[simp] theorem State.setLocal_told (s : State) (f : FeederNo) {x : Instr} (e₀ : s.told x) : (s.setLocal f).told x := by
  simp only [State.setLocal]
  repeat' split
  all_goals simp_all +contextual (maxDischargeDepth := 20) [foldl_told]

@[simp] theorem State.revocationRefused_told (s : State) (i : Slot) {x : Instr} (e₀ : s.told x) : (s.revocationRefused i).told x := by
  simp only [State.revocationRefused]
  repeat' split
  all_goals simp_all +contextual (maxDischargeDepth := 20) [foldl_told]

@[simp] theorem State.openRefused_told (s : State) (f : FeederNo) (o : Order) (r : FeederReport) {x : Instr} (e₀ : s.told x) : (s.openRefused f o r).told x := by
  simp only [State.openRefused]
  repeat' split
  all_goals simp_all +contextual (maxDischargeDepth := 20) [foldl_told]

@[simp] theorem State.reselectIf_told (s : State) (f : FeederNo) (w o : Bool) {x : Instr} (e₀ : s.told x) : (s.reselectIf f w o).told x := by
  simp only [State.reselectIf]
  repeat' split
  all_goals simp_all +contextual (maxDischargeDepth := 20) [foldl_told]

@[simp] theorem State.seReport_told (s : State) (f : FeederNo) (r : FeederReport) {x : Instr} (e₀ : s.told x) : (s.seReport f r).told x := by
  simp only [State.seReport]
  repeat' split
  all_goals simp_all +contextual (maxDischargeDepth := 20) [foldl_told]

@[simp] theorem State.seAnswer_told (s : State) (f : FeederNo) (r : FeederReport) (a : Answered) {x : Instr} (e₀ : s.told x) : (s.seAnswer f r a).told x := by
  simp only [State.seAnswer]
  repeat' split
  all_goals simp_all +contextual (maxDischargeDepth := 20) [foldl_told]

@[simp] theorem State.seReply_told (s : State) (d : FeederDelivery) {x : Instr} (e₀ : s.told x) : (s.seReply d).told x := by
  simp only [State.seReply]
  repeat' split
  all_goals simp_all +contextual (maxDischargeDepth := 20) [foldl_told]

@[simp] theorem State.seContact_told (s : State) (f : FeederNo) (now : Contact) {x : Instr} (e₀ : s.told x) : (s.seContact f now).told x := by
  simp only [State.seContact]
  repeat' split
  all_goals simp_all +contextual (maxDischargeDepth := 20) [foldl_told]

@[simp] theorem State.seJudges_told (s : State) {x : Instr} (e₀ : s.told x) : (s.seJudges).told x := by
  simp only [State.seJudges]
  repeat' split
  all_goals simp_all +contextual (maxDischargeDepth := 20) [foldl_told]

/-- Every telling but a naming outlives the drop of the outstanding naming. -/
theorem State.dropNaming_told (s : State) {x : Instr} (h : isNaming x = false) (e₀ : s.told x) : s.dropNaming.told x :=
  List.mem_filter.mpr ⟨e₀, by simp [h]⟩

theorem State.seDark_told (s : State) {x : Instr} (h : isNaming x = false) (e₀ : s.told x) : s.seDark.told x := by
  refine foldl_told _ (fun _ _ h => by split <;> simp [h]) _ _ ?_
  exact State.shedTo_told _ .idle (State.dropNaming_told s h e₀)

@[simp] theorem State.revokeFailed_told (s : State) (i : Slot) {x : Instr} (e₀ : s.told x) : (s.revokeFailed i).told x := by
  simp only [State.revokeFailed]
  repeat' split
  all_goals simp_all +contextual (maxDischargeDepth := 20) [foldl_told]

@[simp] theorem State.namingEnded_told (s : State) {x : Instr} (e₀ : s.told x) : s.namingEnded.told x := by
  simp only [State.namingEnded]
  repeat' split
  all_goals simp_all +contextual (maxDischargeDepth := 20) [foldl_told]

/-! ## Admission -/

@[simp] theorem State.adopt_told (s : State) (f : FeederNo) (draw : Kw) (quiet : Bool) {x : Instr} (e₀ : s.told x) :
    (s.adopt f draw quiet).told x := by
  simp only [State.adopt]
  split
  · exact e₀
  · rename_i h
    rcases State.adopt_made h with rfl | rfl <;> split <;> simp [e₀]

@[simp] theorem State.withdrawOpen_told (s : State) (f : FeederNo) {x : Instr} (e₀ : s.told x) : (s.withdrawOpen f).told x := by
  simp only [State.withdrawOpen]
  repeat' split
  all_goals simp_all +contextual (maxDischargeDepth := 20) [foldl_told]

@[simp] theorem State.confirmShed_told (s : State) (i : Slot) (f : FeederNo) (draw : Kw) {x : Instr} (e₀ : s.told x) : (s.confirmShed i f draw).told x := by
  simp only [State.confirmShed]
  repeat' split
  all_goals simp_all +contextual (maxDischargeDepth := 20) [foldl_told]

@[simp] theorem State.reportPermit_told (s : State) (f : FeederNo) (i : Slot) (closed : Bool) (draw : Kw) (quiet : Bool)
    {x : Instr} (e₀ : s.told x) : (s.reportPermit f i closed draw quiet).told x := by
  delta State.reportPermit
  dsimp only
  repeat' split
  all_goals simp (maxDischargeDepth := 20) [e₀]

@[simp] theorem State.aeReport_told (s : State) (d : FeederDelivery) {x : Instr} (e₀ : s.told x) : (s.aeReport d).told x := by
  simp only [State.aeReport]
  repeat' split
  all_goals simp_all +contextual (maxDischargeDepth := 20) [foldl_told]

@[simp] theorem State.judgeMark_told (s : State) (i : Slot) {x : Instr} (e₀ : s.told x) : (s.judgeMark i).told x := by
  simp only [State.judgeMark]
  split
  · simp [e₀]
  · exact e₀

@[simp] theorem State.countRelease_told (s : State) (i : Slot) (kw : Kw) {x : Instr} (e₀ : s.told x) : (s.countRelease i kw).told x := by
  simp only [State.countRelease]
  repeat' split
  all_goals simp_all +contextual (maxDischargeDepth := 20) [foldl_told]

@[simp] theorem State.aeAnswer_told (s : State) (a : Answered) {x : Instr} (e₀ : s.told x) : (s.aeAnswer a).1.told x := by
  simp only [State.aeAnswer]
  repeat' split
  all_goals simp_all +contextual (maxDischargeDepth := 20) [foldl_told]

@[simp] theorem State.retirePermit_told (s : State) (i : Slot) {x : Instr} (e₀ : s.told x) : (s.retirePermit i).told x := by
  simp only [State.retirePermit]
  repeat' split
  all_goals simp (maxDischargeDepth := 20) [e₀]

theorem State.adjustPermit_told {s t : State} {i : Slot} {kw : Kw} (h : s.adjustPermit i kw = .ok t) {x : Instr}
    (e₀ : s.told x) : t.told x := by
  simp only [State.adjustPermit] at h
  repeat' split at h
  all_goals first | cases h; done | skip
  all_goals
    obtain rfl := Except.ok.inj h
    try obtain ⟨rfl, -⟩ := State.claim_some ‹State.claim _ _ = some _›
    simp (maxDischargeDepth := 20) [e₀]

@[simp] theorem State.deny_told (s : State) (f : FeederNo) (h : Option Handle) (r : Reason) {x : Instr} (e₀ : s.told x) : (s.deny f h r).told x := by
  simp only [State.deny]
  repeat' split
  all_goals simp_all +contextual (maxDischargeDepth := 20) [foldl_told]

@[simp] theorem State.newRequest_told (s : State) (f : FeederNo) (draw : Kw) (c : DrawClaim) {x : Instr} (e₀ : s.told x) :
    (s.newRequest f draw c).told x := by
  have k := fun w => s.decideRequest_told (.feeder f) (s.feeder f).cls c.kw draw c.mayWait w none e₀
  simp only [State.newRequest]
  split
  · simp [e₀]
  · split
    all_goals first | (simp [e₀]; done) | skip
    split
    · simp [e₀]
    · have k' := k (secs (if c.waitLimit = 0 then s.setting .defaultWaitLimit else c.waitLimit))
      split
      all_goals
        rename_i h
        rw [h] at k'
        first
          | exact State.aePlace_told _ _ _ k'
          | (split <;> first | exact e₀ | exact State.aePlace_told _ _ _ k')

@[simp] theorem State.changeRequest_told (s : State) (f : FeederNo) (i : Slot) (c : DrawClaim) {x : Instr} (e₀ : s.told x) :
    (s.changeRequest f i c).told x := by
  simp only [State.changeRequest]
  repeat' split
  all_goals first
    | (simp (maxDischargeDepth := 20) [e₀]; done)
    | (simp [State.adjustPermit_told ‹State.adjustPermit _ _ _ = .ok _› e₀])

@[simp] theorem State.takeDraw_told (s : State) (d : FeederDelivery) (c : DrawClaim) {x : Instr} (e₀ : s.told x) : (s.takeDraw d c).told x := by
  simp only [State.takeDraw]
  repeat' split
  all_goals simp_all +contextual (maxDischargeDepth := 20) [foldl_told]

@[simp] theorem State.takeRelease_told (before : State) (s : State) (d : FeederDelivery) (h : Handle) {x : Instr} (e₀ : s.told x) : (before.takeRelease s d h).told x := by
  simp only [State.takeRelease]
  repeat' split
  all_goals simp_all +contextual (maxDischargeDepth := 20) [foldl_told]

@[simp] theorem State.aeReturns_told (s : State) (d : FeederDelivery) {x : Instr} (e₀ : s.told x) : (s.aeReturns d).told x := by
  simp only [State.aeReturns]
  repeat' split
  all_goals simp_all +contextual (maxDischargeDepth := 20) [foldl_told]

theorem State.aeDelivery_told (s : State) (d : FeederDelivery) (claim : State → State)
    {x : Instr} (hc : ∀ t, t.told x → (claim t).told x) (e₀ : s.told x) : (s.aeDelivery d claim).told x := by
  simp only [State.aeDelivery]
  repeat' split
  all_goals simp_all +contextual (maxDischargeDepth := 20)

@[simp] theorem State.aeContact_told (s : State) (f : FeederNo) (now : Contact) {x : Instr} (e₀ : s.told x) : (s.aeContact f now).told x := by
  simp only [State.aeContact]
  repeat' split
  all_goals simp_all +contextual (maxDischargeDepth := 20) [foldl_told]

@[simp] theorem State.aeGone_told (s : State) (o : Order) {x : Instr} (e₀ : s.told x) : (s.aeGone o).told x := by
  simp only [State.aeGone]
  repeat' split
  all_goals simp_all +contextual (maxDischargeDepth := 20) [foldl_told]

@[simp] theorem State.waitExpired_told (s : State) (i : Slot) {x : Instr} (e₀ : s.told x) : (s.waitExpired i).told x := by
  simp only [State.waitExpired]
  repeat' split
  all_goals simp_all +contextual (maxDischargeDepth := 20) [foldl_told]

@[simp] theorem State.reservationExpired_told (s : State) (i : Slot) {x : Instr} (e₀ : s.told x) : (s.reservationExpired i).told x := by
  simp only [State.reservationExpired]
  repeat' split
  all_goals simp_all +contextual (maxDischargeDepth := 20) [foldl_told]

@[simp] theorem State.guardExpired_told (s : State) {x : Instr} (e₀ : s.told x) : s.guardExpired.told x := by
  simp only [State.guardExpired]
  repeat' split
  all_goals simp_all +contextual (maxDischargeDepth := 20) [foldl_told]

@[simp] theorem State.walkRequest_told (s : State) (f : FeederNo) (kw : Kw) {x : Instr} (e₀ : s.told x) :
    (s.walkRequest f kw).told x := by
  simp only [State.walkRequest]
  split
  · rename_i i hp hi
    have hb : (s.arrive.burn i).told x := e₀
    split
    · rename_i u h
      obtain ⟨rfl, -⟩ := State.claim_some h
      simp (maxDischargeDepth := 20) [e₀]
    · simp [hb]
  · simp [e₀]

@[simp] theorem State.aeDark_told (s : State) {x : Instr} (e₀ : s.told x) : s.aeDark.told x := by
  simp only [State.aeDark]
  repeat' split
  all_goals simp_all +contextual (maxDischargeDepth := 20) [foldl_told]

/-! ## Lanes -/

@[simp] theorem State.commit_told (s : State) (g : GensetNo) {x : Instr} (e₀ : s.told x) : (s.commit g).told x := by
  simp only [State.commit]
  repeat' split
  all_goals simp_all +contextual (maxDischargeDepth := 20) [foldl_told]

@[simp] theorem State.gsPlace_told (s : State) (g : GensetNo) (o : Order) (urgent : Bool) {x : Instr} (e₀ : s.told x) : (s.gsPlace g o urgent).told x := by
  simp only [State.gsPlace]
  repeat' split
  all_goals simp_all +contextual (maxDischargeDepth := 20) [foldl_told]

@[simp] theorem State.tellLead_told (s : State) (r : Run) (o : LeadOutcome) {x : Instr} (e₀ : s.told x) : (s.tellLead r o).told x := by
  simp only [State.tellLead]
  repeat' split
  all_goals simp_all +contextual (maxDischargeDepth := 20) [foldl_told]

@[simp] theorem State.failRun_told (s : State) (lane : LaneId) (cause : FailCause) {x : Instr} (e₀ : s.told x) : (s.failRun lane cause).told x := by
  simp only [State.failRun]
  repeat' split
  all_goals simp_all +contextual (maxDischargeDepth := 20) [foldl_told]

@[simp] theorem State.endRun_told (s : State) (lane : LaneId) (r : Run) {x : Instr} (e₀ : s.told x) : (s.endRun lane r).told x := by
  simp only [State.endRun]
  repeat' split
  all_goals simp_all +contextual (maxDischargeDepth := 20) [foldl_told]

@[simp] theorem State.breakerClosed_told (s : State) (r : Run) {x : Instr} (e₀ : s.told x) : (s.breakerClosed r).told x := by
  simp only [State.breakerClosed]
  repeat' split
  all_goals simp_all +contextual (maxDischargeDepth := 20) [foldl_told]

@[simp] theorem State.withdrawStep_told (s : State) (r : Run) {x : Instr} (e₀ : s.told x) : (s.withdrawStep r).told x := by
  simp only [State.withdrawStep]
  repeat' split
  all_goals simp_all +contextual (maxDischargeDepth := 20) [foldl_told]

@[simp] theorem State.completeStep_told (s : State) (lane : LaneId) (r : Run) (k : StepKind) {x : Instr} (e₀ : s.told x) : (s.completeStep lane r k).1.told x := by
  simp only [State.completeStep]
  repeat' split
  all_goals simp_all +contextual (maxDischargeDepth := 20) [foldl_told]

@[simp] theorem State.failing_told (s : State) (lane : LaneId) (cause : FailCause) {x : Instr} (e₀ : s.told x) : (s.failing lane cause).1.told x := by
  simp only [State.failing]
  repeat' split
  all_goals simp_all +contextual (maxDischargeDepth := 20) [foldl_told]

@[simp] theorem State.orderClose_told (s : State) (lane : LaneId) (r : Run) (k : StepKind) (o : Order)
    {x : Instr} (e₀ : s.told x) : (s.orderClose lane r k o).1.told x := by
  simp only [State.orderClose]
  split <;> simp [e₀]

@[simp] theorem State.granted_told (s : State) (lane : LaneId) (r : Run) {x : Instr} (e₀ : s.told x) : (s.granted lane r).1.told x := by
  simp only [State.granted]
  repeat' split
  all_goals simp_all +contextual (maxDischargeDepth := 20) [foldl_told]

@[simp] theorem State.askToken_told (s : State) (lane : LaneId) (r : Run) {x : Instr} (e₀ : s.told x) : (s.askToken lane r).1.told x := by
  simp only [State.askToken]
  repeat' split
  all_goals simp_all +contextual (maxDischargeDepth := 20) [foldl_told]

@[simp] theorem State.beginStep_told (s : State) (lane : LaneId) (r : Run) {x : Instr} (e₀ : s.told x) : (s.beginStep lane r).1.told x := by
  simp only [State.beginStep]
  repeat' split
  all_goals simp_all +contextual (maxDischargeDepth := 20) [foldl_told]

theorem State.work_told (s : State) (w : Work) {x : Instr} (e₀ : s.told x) : (s.work w).1.told x := by
  cases w <;> simp only [State.work] <;> repeat' split
  all_goals simp (maxDischargeDepth := 20) [e₀]

theorem State.pump_told (n : Nat) (ws : List Work) (s : State) {x : Instr} (e₀ : s.told x) :
    (State.pump n ws s).told x := by
  induction n generalizing ws s with
  | zero => exact e₀
  | succ n ih => cases ws with
    | nil => exact e₀
    | cons w ws => exact ih _ _ (State.work_told s w e₀)

@[simp] theorem State.finish_told (r : State × List Work) {x : Instr} (e₀ : r.1.told x) : (State.finish r).told x :=
  State.pump_told _ _ _ e₀

@[simp] theorem State.takeLane_told (s : State) (lane : LaneId) (g : GensetNo) (origin : Origin) {x : Instr} (e₀ : s.told x) :
    (s.takeLane lane g origin).told x := by
  simp [State.takeLane, e₀]

@[simp] theorem State.laneReport_told (s : State) (lane : LaneId) {x : Instr} (e₀ : s.told x) : (s.laneReport lane).told x := by
  simp only [State.laneReport]
  repeat' split
  all_goals simp_all +contextual (maxDischargeDepth := 20) [foldl_told]

@[simp] theorem State.laneRefusal_told (s : State) (lane : LaneId) (o : Order) {x : Instr} (e₀ : s.told x) : (s.laneRefusal lane o).told x := by
  simp only [State.laneRefusal]
  repeat' split
  all_goals simp_all +contextual (maxDischargeDepth := 20) [foldl_told]

@[simp] theorem State.stepExpired_told (s : State) (lane : LaneId) {x : Instr} (e₀ : s.told x) : (s.stepExpired lane).told x := by
  simp only [State.stepExpired]
  repeat' split
  all_goals simp_all +contextual (maxDischargeDepth := 20) [foldl_told]

@[simp] theorem State.readyExpired_told (s : State) (lane : LaneId) {x : Instr} (e₀ : s.told x) : (s.readyExpired lane).told x := by
  simp only [State.readyExpired]
  repeat' split
  all_goals simp_all +contextual (maxDischargeDepth := 20) [foldl_told]

@[simp] theorem State.stationAbort_told (s : State) (lane : LaneId) {x : Instr} (e₀ : s.told x) : (s.stationAbort lane).told x := by
  simp only [State.stationAbort]
  repeat' split
  all_goals simp_all +contextual (maxDischargeDepth := 20) [foldl_told]

/-! ## Gensets -/

theorem State.append_told (wanted : Kw) (l : List GensetNo) (s : State) {x : Instr} (e₀ : s.told x) :
    (State.append wanted l s).told x := by
  induction l generalizing s with
  | nil => exact e₀
  | cons g l ih =>
    simp only [State.append]
    split
    · exact ih _ e₀
    · exact e₀

theorem State.trim_told (wanted : Kw) (n : Nat) (s : State) {x : Instr} (e₀ : s.told x) :
    (State.trim wanted n s).told x := by
  induction n generalizing s with
  | zero => exact e₀
  | succ n ih =>
    simp only [State.trim]
    repeat' split
    all_goals first | exact e₀ | exact ih _ (by simpa using e₀)

@[simp] theorem State.judgeDemand_told (s : State) {x : Instr} (e₀ : s.told x) : s.judgeDemand.told x := by
  simp only [State.judgeDemand]
  repeat' split
  all_goals simp [State.append_told, State.trim_told, e₀]

@[simp] theorem State.takeHead_told (s : State) (lane : LaneId) {x : Instr} (e₀ : s.told x) : (s.takeHead lane).told x := by
  simp only [State.takeHead]
  repeat' split
  all_goals simp_all +contextual (maxDischargeDepth := 20) [foldl_told]

@[simp] theorem State.takeUp_told (s : State) {x : Instr} (e₀ : s.told x) : s.takeUp.told x := by
  simp only [State.takeUp]
  repeat' split
  all_goals simp_all +contextual (maxDischargeDepth := 20) [foldl_told]

@[simp] theorem State.judgeStop_told (s : State) {x : Instr} (e₀ : s.told x) : s.judgeStop.told x := by
  simp only [State.judgeStop]
  repeat' split
  all_goals simp_all +contextual (maxDischargeDepth := 20) [foldl_told]

@[simp] theorem State.decideStop_told (s : State) (g : GensetNo) {x : Instr} (e₀ : s.told x) : (s.decideStop g).told x := by
  simp only [State.decideStop]
  repeat' split
  all_goals simp_all +contextual (maxDischargeDepth := 20) [foldl_told]

@[simp] theorem State.enterShutting_told (s : State) (g : GensetNo) (urgent : Bool) {x : Instr} (e₀ : s.told x) : (s.enterShutting g urgent).told x := by
  simp only [State.enterShutting]
  repeat' split
  all_goals simp_all +contextual (maxDischargeDepth := 20) [foldl_told]

@[simp] theorem State.enterCooling_told (s : State) (g : GensetNo) {x : Instr} (e₀ : s.told x) : (s.enterCooling g).told x := by
  simp only [State.enterCooling]
  repeat' split
  all_goals simp_all +contextual (maxDischargeDepth := 20) [foldl_told]

@[simp] theorem State.enterOpening_told (s : State) (g : GensetNo) {x : Instr} (e₀ : s.told x) : (s.enterOpening g).told x := by
  simp only [State.enterOpening]
  repeat' split
  all_goals simp_all +contextual (maxDischargeDepth := 20) [foldl_told]

@[simp] theorem State.stopReport_told (s : State) (g : GensetNo) {x : Instr} (e₀ : s.told x) : (s.stopReport g).told x := by
  simp only [State.stopReport]
  repeat' split
  all_goals simp_all +contextual (maxDischargeDepth := 20) [foldl_told]

@[simp] theorem State.phaseEnds_told (s : State) (g : GensetNo) {x : Instr} (e₀ : s.told x) : (s.phaseEnds g).told x := by
  simp only [State.phaseEnds]
  repeat' split
  all_goals simp_all +contextual (maxDischargeDepth := 20) [foldl_told]

theorem State.serveStarts_told (n : Nat) (due : Bool) (s : State) {x : Instr} (e₀ : s.told x) :
    (State.serveStarts n due s).1.told x := by
  induction n generalizing due s with
  | zero => exact e₀
  | succ n ih =>
    have hv : (if due then s.judgeDemand else s).told x := by split <;> simp [e₀]
    simp only [State.serveStarts]
    generalize (if due then s.judgeDemand else s) = u at hv ⊢
    by_cases c : u.gs.queue.length = ((u.takeHead .a).takeHead .b).gs.queue.length
    · simp only [c, if_true]
      exact hv
    · simp only [c, if_false]
      exact ih _ _ (by simp (maxDischargeDepth := 20) [hv])

@[simp] theorem State.settleGensets_told (before : State) (demand stop : Bool) (s : State) {x : Instr} (e₀ : s.told x) :
    (State.settleGensets before demand stop s).told x := by
  simp only [State.settleGensets]
  repeat' split
  all_goals simp [State.serveStarts_told, e₀]

@[simp] theorem State.settleUnknown_told (s : State) (g : GensetNo) {x : Instr} (e₀ : s.told x) : (s.settleUnknown g).told x := by
  simp only [State.settleUnknown]
  repeat' split
  all_goals simp_all +contextual (maxDischargeDepth := 20) [foldl_told]

@[simp] theorem State.onlineTrip_told (s : State) (g : GensetNo) {x : Instr} (e₀ : s.told x) : (s.onlineTrip g).told x := by
  simp only [State.onlineTrip]
  repeat' split
  all_goals simp_all +contextual (maxDischargeDepth := 20) [foldl_told]

@[simp] theorem State.gsReport_told (s : State) (g : GensetNo) (report : GensetReport) {x : Instr} (e₀ : s.told x) : (s.gsReport g report).told x := by
  simp only [State.gsReport]
  repeat' split
  all_goals simp_all +contextual (maxDischargeDepth := 20) [foldl_told]

@[simp] theorem State.stopAnswered_told (s : State) (g : GensetNo) (accepted : Bool) {x : Instr} (e₀ : s.told x) :
    (s.stopAnswered g accepted).told x := by
  simp only [State.stopAnswered]
  repeat' split
  all_goals simp_all

@[simp] theorem State.gsAnswer_told (s : State) (g : GensetNo) (a : Answered) {x : Instr} (e₀ : s.told x) : (s.gsAnswer g a).told x := by
  simp only [State.gsAnswer]
  repeat' split
  all_goals simp_all +contextual (maxDischargeDepth := 20) [foldl_told]

@[simp] theorem State.gsReply_told (s : State) (d : GensetDelivery) {x : Instr} (e₀ : s.told x) : (s.gsReply d).told x := by
  simp only [State.gsReply]
  repeat' split
  all_goals simp_all +contextual (maxDischargeDepth := 20) [foldl_told]

@[simp] theorem State.gsLost_told (s : State) (g : GensetNo) (now : Contact) {x : Instr} (e₀ : s.told x) : (s.gsLost g now).told x := by
  simp only [State.gsLost]
  repeat' split
  all_goals simp_all +contextual (maxDischargeDepth := 20) [foldl_told]

@[simp] theorem State.minRunExpired_told (s : State) (g : GensetNo) {x : Instr} (e₀ : s.told x) : (s.minRunExpired g).told x := by
  simp only [State.minRunExpired]
  repeat' split
  all_goals simp_all +contextual (maxDischargeDepth := 20) [foldl_told]

@[simp] theorem State.restExpired_told (s : State) (g : GensetNo) {x : Instr} (e₀ : s.told x) : (s.restExpired g).told x := by
  simp only [State.restExpired]
  repeat' split
  all_goals simp_all +contextual (maxDischargeDepth := 20) [foldl_told]

@[simp] theorem State.stopDelayExpired_told (s : State) {x : Instr} (e₀ : s.told x) : s.stopDelayExpired.told x := by
  simp only [State.stopDelayExpired]
  repeat' split
  all_goals simp_all +contextual (maxDischargeDepth := 20) [foldl_told]

@[simp] theorem State.phaseLimitExpired_told (s : State) (g : GensetNo) {x : Instr} (e₀ : s.told x) : (s.phaseLimitExpired g).told x := by
  simp only [State.phaseLimitExpired]
  repeat' split
  all_goals simp_all +contextual (maxDischargeDepth := 20) [foldl_told]

@[simp] theorem State.coolDownExpired_told (s : State) (g : GensetNo) {x : Instr} (e₀ : s.told x) : (s.coolDownExpired g).told x := by
  simp only [State.coolDownExpired]
  repeat' split
  all_goals simp_all +contextual (maxDischargeDepth := 20) [foldl_told]

theorem State.laneEvent_told (s : State) (f : State → State) {x : Instr} (hf : (f s).told x) : (s.laneEvent f).told x := by
  simp [State.laneEvent, hf]

@[simp] theorem State.adoption_told (s : State) (why : AdoptionWhy) {x : Instr} (e₀ : s.told x) : (s.adoption why).told x := by
  refine State.settleGensets_told _ _ _ _ ?_
  simp only [State.push_told, State.post_told]
  exact Or.inl (Or.inl (foldl_told _ (fun _ _ h => by simpa using h) _ _ e₀))

@[simp] theorem State.leadRequest_told (s : State) (g : GensetNo) {x : Instr} (e₀ : s.told x) : (s.leadRequest g).told x := by
  simp only [State.leadRequest]
  repeat' split
  all_goals simp_all +contextual (maxDischargeDepth := 20) [foldl_told]

@[simp] theorem State.leadAbort_told (s : State) (g : GensetNo) {x : Instr} (e₀ : s.told x) : (s.leadAbort g).told x := by
  simp only [State.leadAbort]
  repeat' split
  all_goals simp_all +contextual (maxDischargeDepth := 20) [foldl_told]

@[simp] theorem State.gsDark_told (s : State) {x : Instr} (e₀ : s.told x) : s.gsDark.told x := by
  simp only [State.gsDark]
  refine foldl_told _ (fun _ _ h => by simp [h]) _ _ ?_
  rw [State.dropStop_told, told_with_gs]
  refine foldl_told _ (fun _ _ h => by simp [h]) _ _ ?_
  rw [State.post_told]
  refine Or.inl ?_
  refine foldl_told _ (fun _ _ h => by simp [h]) _ _ ?_
  simp [e₀]

@[simp] theorem State.gsIsland_told (s : State) (new : IslandState) {x : Instr} (e₀ : s.told x) : (s.gsIsland new).told x := by
  simp only [State.gsIsland]
  repeat' split
  all_goals simp_all +contextual (maxDischargeDepth := 20) [foldl_told]

/-! ## Curtail -/

@[simp] theorem State.placeHold_told (s : State) (a : ArrayNo) (cap : Kw) (urgent : Bool) {x : Instr} (e₀ : s.told x) : (s.placeHold a cap urgent).told x := by
  simp only [State.placeHold]
  repeat' split
  all_goals simp_all +contextual (maxDischargeDepth := 20) [foldl_told]

@[simp] theorem State.placeRelease_told (s : State) (a : ArrayNo) {x : Instr} (e₀ : s.told x) : (s.placeRelease a).told x := by
  simp only [State.placeRelease]
  repeat' split
  all_goals simp_all +contextual (maxDischargeDepth := 20) [foldl_told]

@[simp] theorem State.markLowered_told (s : State) (a : ArrayNo) {x : Instr} (e₀ : s.told x) : (s.markLowered a).told x := by
  simp only [State.markLowered]
  repeat' split
  all_goals simp_all +contextual (maxDischargeDepth := 20) [foldl_told]

@[simp] theorem State.lower_told (s : State) (a : ArrayNo) {x : Instr} (e₀ : s.told x) : (s.lower a).told x := by
  simp only [State.lower]
  repeat' split
  all_goals simp_all +contextual (maxDischargeDepth := 20) [foldl_told]

@[simp] theorem State.freshHold_told (s : State) (a : ArrayNo) {x : Instr} (e₀ : s.told x) : (s.freshHold a).told x := by
  simp only [State.freshHold]
  repeat' split
  all_goals simp_all +contextual (maxDischargeDepth := 20) [foldl_told]

@[simp] theorem State.freshIfBare_told (s : State) (a : ArrayNo) {x : Instr} (e₀ : s.told x) : (s.freshIfBare a).told x := by
  simp only [State.freshIfBare]
  repeat' split
  all_goals simp_all +contextual (maxDischargeDepth := 20) [foldl_told]

@[simp] theorem State.retarget_told (s : State) {x : Instr} (e₀ : s.told x) : s.retarget.told x := by
  simp only [State.retarget]
  repeat' split
  all_goals simp_all +contextual (maxDischargeDepth := 20) [foldl_told]

@[simp] theorem State.workTargets_told (s : State) {x : Instr} (e₀ : s.told x) : s.workTargets.told x := by
  simp only [State.workTargets]
  repeat' split
  all_goals simp_all +contextual (maxDischargeDepth := 20) [foldl_told]

@[simp] theorem State.judgeRelease_told (s : State) {x : Instr} (e₀ : s.told x) : s.judgeRelease.told x := by
  simp only [State.judgeRelease]
  repeat' split
  all_goals simp_all +contextual (maxDischargeDepth := 20) [foldl_told]

@[simp] theorem State.judgeEngage_told (s : State) {x : Instr} (e₀ : s.told x) : s.judgeEngage.told x := by
  simp only [State.judgeEngage]
  repeat' split
  all_goals simp_all +contextual (maxDischargeDepth := 20) [foldl_told]

@[simp] theorem State.judgeCurtail_told (s : State) {x : Instr} (e₀ : s.told x) : s.judgeCurtail.told x := by
  simp only [State.judgeCurtail]
  repeat' split
  all_goals simp_all +contextual (maxDischargeDepth := 20) [foldl_told]

@[simp] theorem State.ceilingChanged_told (s : State) {x : Instr} (e₀ : s.told x) : s.ceilingChanged.told x := by
  simp only [State.ceilingChanged]
  repeat' split
  all_goals simp_all +contextual (maxDischargeDepth := 20) [foldl_told]

@[simp] theorem State.offer_told (s : State) (k : ClaimKind) (needs : List (ArrayNo × Kw)) {x : Instr} (e₀ : s.told x) : (s.offer k needs).told x := by
  simp only [State.offer]
  repeat' split
  all_goals simp_all +contextual (maxDischargeDepth := 20) [foldl_told]

@[simp] theorem State.offerRelease_told (s : State) {x : Instr} (e₀ : s.told x) : s.offerRelease.told x := by
  simp only [State.offerRelease]
  repeat' split
  all_goals simp_all +contextual (maxDischargeDepth := 20) [foldl_told]

@[simp] theorem State.releaseDelayExpired_told (s : State) {x : Instr} (e₀ : s.told x) : s.releaseDelayExpired.told x := by
  simp only [State.releaseDelayExpired]
  repeat' split
  all_goals simp_all +contextual (maxDischargeDepth := 20) [foldl_told]

@[simp] theorem State.raiseExposure_told (s : State) (k : ClaimKind) (needs : List (ArrayNo × Kw))
    {x : Instr} (e₀ : s.told x) : (s.raiseExposure k needs).told x := by
  simp only [State.raiseExposure]
  split
  all_goals
    simp only [State.push_told, State.post_told]
    exact Or.inl (Or.inl (foldl_told _ (fun _ _ h => by simpa using h) _ _ e₀))

@[simp] theorem State.orderRaised_told (s : State) (a : ArrayNo) {x : Instr} (e₀ : s.told x) : (s.orderRaised a).told x := by
  simp only [State.orderRaised]
  repeat' split
  all_goals simp_all +contextual (maxDischargeDepth := 20) [foldl_told]

@[simp] theorem State.offerWaiting_told (s : State) {x : Instr} (e₀ : s.told x) : (s.offerWaiting).told x := by
  simp only [State.offerWaiting]
  repeat' split
  all_goals simp_all +contextual (maxDischargeDepth := 20) [foldl_told]

@[simp] theorem State.raiseAnswered_told (s : State) (raised : List ArrayNo) {x : Instr} (e₀ : s.told x) : (s.raiseAnswered raised).told x := by
  simp only [State.raiseAnswered]
  repeat' split
  all_goals simp_all +contextual (maxDischargeDepth := 20) [foldl_told]

@[simp] theorem State.releaseArray_told (s : State) (a : ArrayNo) {x : Instr} (e₀ : s.told x) : (s.releaseArray a).told x := by
  simp only [State.releaseArray]
  repeat' split
  all_goals simp_all +contextual (maxDischargeDepth := 20) [foldl_told]

@[simp] theorem State.releaseAnswered_told (s : State) (whole : Bool) (raised : List ArrayNo) {x : Instr} (e₀ : s.told x) : (s.releaseAnswered whole raised).told x := by
  simp only [State.releaseAnswered]
  repeat' split
  all_goals simp_all +contextual (maxDischargeDepth := 20) [foldl_told]

@[simp] theorem State.orderCovered_told (s : State) (a : ArrayNo) {x : Instr} (e₀ : s.told x) : (s.orderCovered a).told x := by
  simp only [State.orderCovered]
  repeat' split
  all_goals simp_all +contextual (maxDischargeDepth := 20) [foldl_told]

@[simp] theorem State.offerRaises_told (s : State) {x : Instr} (e₀ : s.told x) : s.offerRaises.told x := by
  simp only [State.offerRaises]
  repeat' split
  all_goals simp_all +contextual (maxDischargeDepth := 20) [foldl_told]

@[simp] theorem State.renew_told (s : State) (a : ArrayNo) {x : Instr} (e₀ : s.told x) : (s.renew a).told x := by
  simp only [State.renew]
  repeat' split
  all_goals simp_all +contextual (maxDischargeDepth := 20) [foldl_told]

@[simp] theorem State.renewals_told (s : State) {x : Instr} (e₀ : s.told x) : s.renewals.told x := by
  simp only [State.renewals]
  repeat' split
  all_goals simp_all +contextual (maxDischargeDepth := 20) [foldl_told]

@[simp] theorem State.swap_told (s : State) {x : Instr} (e₀ : s.told x) : s.swap.told x := by
  simp only [State.swap]
  repeat' split
  all_goals simp_all +contextual (maxDischargeDepth := 20) [foldl_told]

@[simp] theorem State.clearRefusals_told (s : State) {x : Instr} (e₀ : s.told x) : (s.clearRefusals).told x := by
  simp only [State.clearRefusals]
  repeat' split
  all_goals simp_all +contextual (maxDischargeDepth := 20) [foldl_told]

@[simp] theorem State.orderAgain_told (s : State) (a : ArrayNo) {x : Instr} (e₀ : s.told x) : (s.orderAgain a).told x := by
  simp only [State.orderAgain]
  repeat' split
  all_goals simp_all +contextual (maxDischargeDepth := 20) [foldl_told]

@[simp] theorem State.shareExpired_told (s : State) {x : Instr} (e₀ : s.told x) : s.shareExpired.told x := by
  simp only [State.shareExpired]
  repeat' split
  all_goals simp_all +contextual (maxDischargeDepth := 20) [foldl_told]

@[simp] theorem State.quantumPassed_told (s : State) (a : ArrayNo) {x : Instr} (e₀ : s.told x) : (s.quantumPassed a).told x := by
  simp only [State.quantumPassed]
  repeat' split
  all_goals simp_all +contextual (maxDischargeDepth := 20) [foldl_told]

@[simp] theorem State.judgeExposure_told (b s : State) {x : Instr} (e₀ : s.told x) : (State.judgeExposure b s).told x := by
  unfold State.judgeExposure; split <;> simp [e₀]

@[simp] theorem State.holdLapsed_told (s : State) (a : ArrayNo) {x : Instr} (e₀ : s.told x) : (s.holdLapsed a).told x := by
  simp only [State.holdLapsed]
  repeat' split
  all_goals simp_all +contextual (maxDischargeDepth := 20) [foldl_told]

@[simp] theorem State.syncOrdered_told (s : State) (a : ArrayNo) {x : Instr} (e₀ : s.told x) : (s.syncOrdered a).told x := by
  simp only [State.syncOrdered]
  repeat' split
  all_goals simp_all +contextual (maxDischargeDepth := 20) [foldl_told]

@[simp] theorem State.cuAnswer_told (s : State) (a : ArrayNo) (ans : Answered) {x : Instr} (e₀ : s.told x) : (s.cuAnswer a ans).told x := by
  simp only [State.cuAnswer]
  repeat' split
  all_goals simp_all +contextual (maxDischargeDepth := 20) [foldl_told]

@[simp] theorem State.becameReachable_told (s : State) (a : ArrayNo) {x : Instr} (e₀ : s.told x) : (s.becameReachable a).told x := by
  simp only [State.becameReachable]
  repeat' split
  all_goals simp_all +contextual (maxDischargeDepth := 20) [foldl_told]

@[simp] theorem State.cuReply_told (s : State) (d : ArrayDelivery) {x : Instr} (e₀ : s.told x) : (s.cuReply d).told x := by
  simp only [State.cuReply]
  repeat' split
  all_goals simp_all +contextual (maxDischargeDepth := 20) [foldl_told]

@[simp] theorem State.cuLost_told (s : State) (a : ArrayNo) (now : Contact) {x : Instr} (e₀ : s.told x) : (s.cuLost a now).told x := by
  simp only [State.cuLost]
  repeat' split
  all_goals simp_all +contextual (maxDischargeDepth := 20) [foldl_told]

@[simp] theorem State.cuGone_told (s : State) (a : ArrayNo) {x : Instr} (e₀ : s.told x) : (s.cuGone a).told x := by
  simp only [State.cuGone]
  repeat' split
  all_goals simp_all +contextual (maxDischargeDepth := 20) [foldl_told]

@[simp] theorem State.cuRun_told (s : State) (left : IslandState) {x : Instr} (e₀ : s.told x) : (s.cuRun left).told x := by
  simp only [State.cuRun]
  repeat' split
  all_goals simp_all +contextual (maxDischargeDepth := 20) [foldl_told]

@[simp] theorem State.cuDark_told (s : State) {x : Instr} (e₀ : s.told x) : s.cuDark.told x := by
  refine foldl_told _ (fun _ _ h => by split <;> simp [h]) _ _ ?_
  exact State.retarget_told _ e₀

@[simp] theorem State.cuRestore_told (s : State) {x : Instr} (e₀ : s.told x) : s.cuRestore.told x := by
  simp only [State.cuRestore]
  repeat' split
  all_goals simp_all +contextual (maxDischargeDepth := 20) [foldl_told]

@[simp] theorem State.curtailOn_told (s : State) {x : Instr} (e₀ : s.told x) : s.curtailOn.told x := by
  simp only [State.curtailOn]
  repeat' split
  all_goals simp_all +contextual (maxDischargeDepth := 20) [foldl_told]

@[simp] theorem State.curtailOff_told (s : State) {x : Instr} (e₀ : s.told x) : s.curtailOff.told x := by
  simp only [State.curtailOff]
  repeat' split
  all_goals simp_all +contextual (maxDischargeDepth := 20) [foldl_told]

@[simp] theorem State.defineArray_told (s : State) (a : ArrayNo) (nameplate : Kw) (fallback : Kw) {x : Instr} (e₀ : s.told x) : (s.defineArray a nameplate fallback).told x := by
  simp only [State.defineArray]
  repeat' split
  all_goals simp_all +contextual (maxDischargeDepth := 20) [foldl_told]

/-! ## Island -/

@[simp] theorem State.enterIsland_told (s : State) (new : IslandState) {x : Instr} (e₀ : s.told x) : (s.enterIsland new).told x := by
  simp only [State.enterIsland]
  repeat' split
  all_goals simp_all +contextual (maxDischargeDepth := 20) [foldl_told]

@[simp] theorem State.clearIcNeed_told (s : State) {x : Instr} (e₀ : s.told x) : s.clearIcNeed.told x := by
  simp only [State.clearIcNeed]
  repeat' split
  all_goals simp_all +contextual (maxDischargeDepth := 20) [foldl_told]

@[simp] theorem State.dropWalk_told (s : State) {x : Instr} (e₀ : s.told x) : s.dropWalk.told x := by
  simp only [State.dropWalk]
  repeat' split
  all_goals simp_all +contextual (maxDischargeDepth := 20) [foldl_told]

@[simp] theorem State.startHoldoff_told (s : State) {x : Instr} (e₀ : s.told x) : s.startHoldoff.told x := by
  simp only [State.startHoldoff]
  repeat' split
  all_goals simp_all +contextual (maxDischargeDepth := 20) [foldl_told]

@[simp] theorem State.enterDark_told (s : State) {x : Instr} (e₀ : s.told x) : s.enterDark.told x := by
  simp only [State.enterDark]
  repeat' split
  all_goals simp_all +contextual (maxDischargeDepth := 20) [foldl_told]

@[simp] theorem State.enterRun_told (s : State) {x : Instr} (e₀ : s.told x) : s.enterRun.told x := by
  simp only [State.enterRun]
  repeat' split
  all_goals simp_all +contextual (maxDischargeDepth := 20) [foldl_told]

@[simp] theorem State.markSkip_told (s : State) {x : Instr} (e₀ : s.told x) : s.markSkip.told x := e₀

@[simp] theorem State.advanced_told (s : State) {x : Instr} (e₀ : s.told x) : s.advanced.told x := by
  simp only [State.advanced]
  repeat' split
  all_goals simp_all +contextual (maxDischargeDepth := 20) [foldl_told]

theorem State.takeEntry_told (n : Nat) (s : State) {x : Instr} (e₀ : s.told x) : (State.takeEntry n s).told x := by
  induction n generalizing s with
  | zero => exact e₀
  | succ n ih =>
    simp only [State.takeEntry]
    repeat' split
    all_goals first | exact ih _ (by simp (maxDischargeDepth := 20) [e₀]) | (simp [e₀]; done) | exact State.clearIcNeed_told _ e₀

@[simp] theorem State.walkOn_told (s : State) {x : Instr} (e₀ : s.told x) : s.walkOn.told x :=
  State.takeEntry_told _ _ e₀

@[simp] theorem State.walkAdvance_told (s : State) {x : Instr} (e₀ : s.told x) : s.walkAdvance.told x := by
  simp only [State.walkAdvance]
  repeat' split
  all_goals simp_all +contextual (maxDischargeDepth := 20) [foldl_told]

@[simp] theorem State.startSettle_told (s : State) {x : Instr} (e₀ : s.told x) : s.startSettle.told x := by
  simp only [State.startSettle]
  repeat' split
  all_goals simp_all +contextual (maxDischargeDepth := 20) [foldl_told]

@[simp] theorem State.resumeWalk_told (s : State) {x : Instr} (e₀ : s.told x) : s.resumeWalk.told x := by
  simp only [State.resumeWalk]
  repeat' split
  all_goals simp_all +contextual (maxDischargeDepth := 20) [foldl_told]

@[simp] theorem State.headroomRose_told (s : State) {x : Instr} (e₀ : s.told x) : s.headroomRose.told x := by
  simp only [State.headroomRose]
  repeat' split
  all_goals simp_all +contextual (maxDischargeDepth := 20) [foldl_told]

@[simp] theorem State.walkAnswered_told (s : State) (f : FeederNo) (kw : Kw) (answer : Option Handle) {x : Instr} (e₀ : s.told x) : (s.walkAnswered f kw answer).told x := by
  simp only [State.walkAnswered]
  repeat' split
  all_goals simp_all +contextual (maxDischargeDepth := 20) [foldl_told]

@[simp] theorem State.walkOutcome_told (s : State) (h : Handle) (granted : Bool) {x : Instr} (e₀ : s.told x) : (s.walkOutcome h granted).told x := by
  simp only [State.walkOutcome]
  repeat' split
  all_goals simp_all +contextual (maxDischargeDepth := 20) [foldl_told]

@[simp] theorem State.settleExpired_told (s : State) {x : Instr} (e₀ : s.told x) : s.settleExpired.told x := by
  simp only [State.settleExpired]
  repeat' split
  all_goals simp_all +contextual (maxDischargeDepth := 20) [foldl_told]

@[simp] theorem State.restoreTimers_told (s : State) {x : Instr} (e₀ : s.told x) : s.restoreTimers.told x := by
  simp only [State.restoreTimers]
  repeat' split
  all_goals simp_all +contextual (maxDischargeDepth := 20) [foldl_told]

@[simp] theorem State.enterRestore_told (s : State) {x : Instr} (e₀ : s.told x) : s.enterRestore.told x := by
  have h : State.told { s with ic := { s.ic with
      restoreList := s.ic.restoreList.map RestoreEntry.unskipped, walkPointer := 0, walkPhase := some .next
      walkPermit := none, settle := none, foreignLive := false, decision := none, lead := none } } x := e₀
  have h' := State.restoreTimers_told _ h
  simp only [State.enterRestore]
  repeat' split
  all_goals
    first
      | exact State.enterRun_told _ (State.enterIsland_told _ _ h')
      | exact State.walkOn_told _ (State.enterIsland_told _ _ h')
      | exact State.enterIsland_told _ _ h'

@[simp] theorem State.askLead_told (s : State) (g : GensetNo) {x : Instr} (e₀ : s.told x) : (s.askLead g).told x := by
  simp only [State.askLead]
  repeat' split
  all_goals simp_all +contextual (maxDischargeDepth := 20) [foldl_told]

@[simp] theorem State.enterRestart_told (s : State) {x : Instr} (e₀ : s.told x) : s.enterRestart.told x := by
  simp only [State.enterRestart]
  repeat' split
  all_goals simp_all +contextual (maxDischargeDepth := 20) [foldl_told]

@[simp] theorem State.busChanged_told (s : State) (live : Bool) {x : Instr} (e₀ : s.told x) :
    (s.busChanged live).told x := by
  simp only [State.busChanged]
  repeat' split
  all_goals exact e₀

@[simp] theorem State.deadConfirmed_told (s : State) {x : Instr} (e₀ : s.told x) : s.deadConfirmed.told x := by
  simp only [State.deadConfirmed]
  repeat' split
  all_goals simp_all +contextual (maxDischargeDepth := 20) [foldl_told]

@[simp] theorem State.liveConfirmed_told (s : State) {x : Instr} (e₀ : s.told x) : s.liveConfirmed.told x := by
  simp only [State.liveConfirmed]
  repeat' split
  all_goals simp_all +contextual (maxDischargeDepth := 20) [foldl_told]

@[simp] theorem State.markForeign_told (s : State) {x : Instr} (e₀ : s.told x) : s.markForeign.told x := by
  simp only [State.markForeign]
  repeat' split
  all_goals simp_all +contextual (maxDischargeDepth := 20) [foldl_told]

@[simp] theorem State.holdoffExpired_told (s : State) {x : Instr} (e₀ : s.told x) : s.holdoffExpired.told x := by
  simp only [State.holdoffExpired]
  repeat' split
  all_goals simp_all +contextual (maxDischargeDepth := 20) [foldl_told]

@[simp] theorem State.roundFailed_told (s : State) {x : Instr} (e₀ : s.told x) : s.roundFailed.told x := by
  simp only [State.roundFailed]
  repeat' split
  all_goals simp_all +contextual (maxDischargeDepth := 20) [foldl_told]

@[simp] theorem State.nextLead_told (s : State) {x : Instr} (e₀ : s.told x) : s.nextLead.told x := by
  simp only [State.nextLead]
  repeat' split
  all_goals simp_all +contextual (maxDischargeDepth := 20) [foldl_told]

@[simp] theorem State.judgeDecision_told (s : State) (d : LiveDecision) {x : Instr} (e₀ : s.told x) : (s.judgeDecision d).told x := by
  simp only [State.judgeDecision]
  repeat' split
  all_goals simp_all +contextual (maxDischargeDepth := 20) [foldl_told]

@[simp] theorem State.leadEnded_told (s : State) (o : LeadOutcome) {x : Instr} (e₀ : s.told x) : (s.leadEnded o).told x := by
  simp only [State.leadEnded]
  repeat' split
  all_goals simp_all +contextual (maxDischargeDepth := 20) [foldl_told]

@[simp] theorem State.adoptionAnswered_told (s : State) (why : AdoptionWhy) (adopted : List GensetNo) {x : Instr} (e₀ : s.told x) : (s.adoptionAnswered why adopted).told x := by
  simp only [State.adoptionAnswered]
  repeat' split
  all_goals simp_all +contextual (maxDischargeDepth := 20) [foldl_told]

@[simp] theorem State.leaveSetup_told (s : State) {x : Instr} (e₀ : s.told x) : s.leaveSetup.told x := by
  simp only [State.leaveSetup]
  repeat' split
  all_goals simp_all +contextual (maxDischargeDepth := 20) [foldl_told]

@[simp] theorem State.unadopt_told (s : State) (f : FeederNo) {x : Instr} (e₀ : s.told x) : (s.unadopt f).told x := by
  simp only [State.unadopt]
  repeat' split
  all_goals simp_all +contextual (maxDischargeDepth := 20) [foldl_told]

@[simp] theorem State.judgeComplete_told (s : State) {x : Instr} (e₀ : s.told x) : s.judgeComplete.told x := by
  simp only [State.judgeComplete]
  repeat' split
  all_goals simp_all +contextual (maxDischargeDepth := 20) [foldl_told]

@[simp] theorem State.quietChanged_told (s : State) (mark : QuietMark) (quiet : Bool) {x : Instr} (e₀ : s.told x) : (s.quietChanged mark quiet).told x := by
  simp only [State.quietChanged]
  repeat' split
  all_goals simp_all +contextual (maxDischargeDepth := 20) [foldl_told]

@[simp] theorem State.beginStandDown_told (s : State) {x : Instr} (e₀ : s.told x) : s.beginStandDown.told x := by
  simp only [State.beginStandDown]
  repeat' split
  all_goals simp_all +contextual (maxDischargeDepth := 20) [foldl_told]

@[simp] theorem State.endStandDown_told (s : State) {x : Instr} (e₀ : s.told x) : s.endStandDown.told x := by
  simp only [State.endStandDown]
  repeat' split
  all_goals simp_all +contextual (maxDischargeDepth := 20) [foldl_told]

@[simp] theorem State.raIsland_told (s : State) (left : IslandState) (new : IslandState) {x : Instr} (e₀ : s.told x) : (s.raIsland left new).told x := by
  simp only [State.raIsland]
  repeat' split
  all_goals simp_all +contextual (maxDischargeDepth := 20) [foldl_told]

/-! ## Loop -/

@[simp] theorem State.unurge_told (s : State) (u : Addr) {x : Instr} (e₀ : s.told x) : (s.unurge u).told x := by
  simp only [State.unurge]
  repeat' split
  all_goals simp_all +contextual (maxDischargeDepth := 20) [foldl_told]

@[simp] theorem State.startGap_told (s : State) {x : Instr} (e₀ : s.told x) : s.startGap.told x := by
  simp only [State.startGap]
  repeat' split
  all_goals simp_all +contextual (maxDischargeDepth := 20) [foldl_told]

@[simp] theorem State.tellGone_told (s : State) (o : SlotOrder) (r : UnitRec) (why : GoneCause) {x : Instr} (e₀ : s.told x) : (s.tellGone o r why).told x := by
  simp only [State.tellGone]
  repeat' split
  all_goals simp_all +contextual (maxDischargeDepth := 20) [foldl_told]

@[simp] theorem State.beginTurn_told (s : State) (u : Addr) (urgent : Bool) {x : Instr} (e₀ : s.told x) : (s.beginTurn u urgent).told x := by
  simp only [State.beginTurn]
  repeat' split
  all_goals simp_all +contextual (maxDischargeDepth := 20) [foldl_told]

theorem State.pollTurn_told (n : Nat) (s : State) {x : Instr} (e₀ : s.told x) : (State.pollTurn n s).told x := by
  induction n generalizing s with
  | zero => exact e₀
  | succ n ih =>
    simp only [State.pollTurn]
    repeat' split
    all_goals simp [ih, e₀]

@[simp] theorem State.chooseTurn_told (s : State) {x : Instr} (e₀ : s.told x) : s.chooseTurn.told x := by
  simp only [State.chooseTurn]
  split <;> simp [State.pollTurn_told, e₀]

@[simp] theorem State.wakeLoop_told (s : State) {x : Instr} (e₀ : s.told x) : s.wakeLoop.told x := by
  simp only [State.wakeLoop]
  repeat' split
  all_goals simp_all +contextual (maxDischargeDepth := 20) [foldl_told]

@[simp] theorem State.emptySlot_told (s : State) (u : Addr) {x : Instr} (e₀ : s.told x) : (s.emptySlot u).told x := by
  simp only [State.emptySlot]
  repeat' split
  all_goals simp_all +contextual (maxDischargeDepth := 20) [foldl_told]

@[simp] theorem State.placed_told (s : State) (p : Placement) {x : Instr} (e₀ : s.told x) : (s.placed p).told x := by
  simp only [State.placed]
  repeat' split
  all_goals simp_all +contextual (maxDischargeDepth := 20) [foldl_told]

@[simp] theorem State.withdrawn_told (s : State) (w : Withdrawal) {x : Instr} (e₀ : s.told x) : (s.withdrawn w).told x := by
  simp only [State.withdrawn]
  repeat' split
  all_goals simp_all +contextual (maxDischargeDepth := 20) [foldl_told]

@[simp] theorem State.rejudge_told (s : State) (t : Turn) {x : Instr} (e₀ : s.told x) : (s.rejudge t).told x := by
  simp only [State.rejudge]
  repeat' split
  all_goals simp_all +contextual (maxDischargeDepth := 20) [foldl_told]

@[simp] theorem State.missedTurn_told (s : State) (t : Turn) {x : Instr} (e₀ : s.told x) : (s.missedTurn t).told x := by
  simp only [State.missedTurn]
  repeat' split
  all_goals simp_all +contextual (maxDischargeDepth := 20) [foldl_told]

@[simp] theorem State.turnMissed_told (s : State) (t : Turn) {x : Instr} (e₀ : s.told x) : (s.turnMissed t).told x := by
  simp only [State.turnMissed]
  repeat' split
  all_goals simp_all +contextual (maxDischargeDepth := 20) [foldl_told]

@[simp] theorem State.validTurn_told (s : State) (t : Turn) (r : UnitRec) (p : ReplyParts) {x : Instr} (e₀ : s.told x) : (s.validTurn t r p).told x := by
  simp only [State.validTurn]
  repeat' split
  all_goals simp_all +contextual (maxDischargeDepth := 20) [foldl_told]

@[simp] theorem State.replyTaken_told (s : State) (chars : List Byte) {x : Instr} (e₀ : s.told x) : (s.replyTaken chars).told x := by
  simp only [State.replyTaken]
  repeat' split
  all_goals simp_all +contextual (maxDischargeDepth := 20) [foldl_told]

@[simp] theorem State.frameLeft_told (s : State) {x : Instr} (e₀ : s.told x) : s.frameLeft.told x := by
  simp only [State.frameLeft]
  repeat' split
  all_goals simp_all +contextual (maxDischargeDepth := 20) [foldl_told]

@[simp] theorem State.replyBegins_told (s : State) {x : Instr} (e₀ : s.told x) : s.replyBegins.told x := by
  simp only [State.replyBegins]
  repeat' split
  all_goals simp_all +contextual (maxDischargeDepth := 20) [foldl_told]

@[simp] theorem State.receptionEnds_told (s : State) {x : Instr} (e₀ : s.told x) : s.receptionEnds.told x := by
  simp only [State.receptionEnds]
  repeat' split
  all_goals simp_all +contextual (maxDischargeDepth := 20) [foldl_told]

@[simp] theorem State.windowExpired_told (s : State) {x : Instr} (e₀ : s.told x) : s.windowExpired.told x := by
  simp only [State.windowExpired]
  repeat' split
  all_goals simp_all +contextual (maxDischargeDepth := 20) [foldl_told]

@[simp] theorem State.gapExpired_told (s : State) {x : Instr} (e₀ : s.told x) : s.gapExpired.told x := by
  simp only [State.gapExpired]
  repeat' split
  all_goals simp_all +contextual (maxDischargeDepth := 20) [foldl_told]

@[simp] theorem State.setAddr_told (s : State) (r : UnitRec) (u : Option Addr) {x : Instr} (e₀ : s.told x) : (s.setAddr r u).told x := by
  simp only [State.setAddr]
  repeat' split
  all_goals simp_all +contextual (maxDischargeDepth := 20) [foldl_told]

@[simp] theorem State.unbind_told (s : State) (u : Addr) {x : Instr} (e₀ : s.told x) : (s.unbind u).told x := by
  simp only [State.unbind]
  repeat' split
  all_goals simp_all +contextual (maxDischargeDepth := 20) [foldl_told]

@[simp] theorem State.bind_told (s : State) (u : Addr) (r : Option UnitRec) {x : Instr} (e₀ : s.told x) :
    (s.bind u r).told x := by
  simp only [State.bind]
  split <;> simp (maxDischargeDepth := 20) [e₀]

@[simp] theorem State.setPolls_told (s : State) (l : List Addr) {x : Instr} (e₀ : s.told x) : (s.setPolls l).told x := by
  simp [State.setPolls, e₀]

/-! ## Postings -/

@[simp] theorem State.postAdmission_told (s : State) (i : Slot) {x : Instr} (e₀ : s.told x) : (s.postAdmission i).told x := by
  simp only [State.postAdmission]
  repeat' split
  all_goals first
    | exact e₀
    | (obtain ⟨rfl, -⟩ := State.claim_some ‹State.claim _ _ = some _›; simp (maxDischargeDepth := 20) [e₀])

@[simp] theorem State.postIncrease_told (s : State) (i : Slot) (kw : Kw) {x : Instr} (e₀ : s.told x) :
    (s.postIncrease i kw).told x := by
  simp only [State.postIncrease]
  repeat' split
  all_goals first
    | exact e₀
    | (obtain ⟨rfl, -⟩ := State.claim_some ‹State.claim _ _ = some _›; simp (maxDischargeDepth := 20) [e₀])

@[simp] theorem State.postCut_told (s : State) (i : Slot) (kw : Kw) {x : Instr} (e₀ : s.told x) : (s.postCut i kw).told x := by
  simp only [State.postCut]
  repeat' split
  all_goals first
    | exact e₀
    | simp (maxDischargeDepth := 20) [State.adjustPermit_told ‹State.adjustPermit _ _ _ = .ok _› e₀]

@[simp] theorem State.postDraw_told (s : State) (f : FeederNo) (kw : Kw) {x : Instr} (e₀ : s.told x) : (s.postDraw f kw).told x := by
  simp only [State.postDraw]
  repeat' split
  all_goals simp_all +contextual (maxDischargeDepth := 20) [foldl_told]

@[simp] theorem State.postOnline_told (s : State) (g : GensetNo) {x : Instr} (e₀ : s.told x) : (s.postOnline g).told x := by
  simp only [State.postOnline]
  repeat' split
  all_goals simp_all +contextual (maxDischargeDepth := 20) [foldl_told]

@[simp] theorem State.postOffline_told (s : State) (g : GensetNo) {x : Instr} (e₀ : s.told x) : (s.postOffline g).told x := by
  simp only [State.postOffline]
  repeat' split
  all_goals simp_all +contextual (maxDischargeDepth := 20) [foldl_told]

end Sys2Proof.Machine
end

