-- ==== Sys2Proof/Laws/Arrays.lean ====
section
/-! SUPPORT. What the Curtailment Unit's orders leave alone: `s.bare` is `s` without its tellings, its ordered caps and the marks
of lowerings, and every figure, target and judgement of the CU reads it alone; and what working out targets, engaging and judging the release leave. -/

namespace Sys2Proof.Machine

/-- A record without its ordered cap and its mark of a lowering. -/
def ArrayRecord.bare (r : ArrayRecord) : ArrayRecord := { r with ordered := none, lowered := false }

/-- The state without its tellings, its ordered caps and the marks of lowerings. -/
def State.bare (s : State) : State :=
  { s with events := [], cu := { s.cu with arrays := mapTable (fun _ r => r.bare) s.cu.arrays } }

theorem mapTable_get {α : Type} {n : Nat} (f : Fin n → α → α) (v : Vector α n) (i : Fin n) :
    (mapTable f v)[i] = f i v[i] := by
  simp [mapTable]

theorem table_ext {α : Type} {n : Nat} {v w : Vector α n} (h : ∀ i : Fin n, v[i] = w[i]) : v = w :=
  Vector.ext fun i hi => h ⟨i, hi⟩

theorem toList_eq_map {α : Type} {n : Nat} (v : Vector α n) : v.toList = (List.finRange n).map fun i => v[i] := by
  apply List.ext_getElem <;> simp

theorem sumOver_congr {α β : Type} (f : α → Nat) (g : β → Nat) (l : List α) (m : List β) (h : l.map f = m.map g) :
    sumOver f l = sumOver g m := by
  have e : ∀ {γ : Type} (f : γ → Nat) (l : List γ), sumOver f l = (l.map f).sum := by
    intro γ f l; induction l with
    | nil => rfl
    | cons a l ih => simp only [sumOver, List.foldr_cons, List.map_cons, List.sum_cons] at *; rw [ih]
  rw [e, e, h]

/-- A sum over a table through a function that does not change what is summed. -/
theorem sumOver_mapTable {α : Type} {n : Nat} (f : α → Nat) (g : Fin n → α → α) (v : Vector α n)
    (h : ∀ i r, f (g i r) = f r) : sumOver f (mapTable g v).toList = sumOver f v.toList := by
  apply sumOver_congr
  rw [toList_eq_map, toList_eq_map, List.map_map, List.map_map]
  apply List.map_congr_left
  intro i _
  simp only [Function.comp, mapTable_get, h]

@[simp] theorem State.bare_array (s : State) (a : ArrayNo) : s.bare.array a = (s.array a).bare :=
  mapTable_get _ _ _

theorem State.bare_eq {s t : State} (h : t.sansCurtailment = s.sansCurtailment)
    (c : { t.cu with arrays := s.cu.arrays } = s.cu) (a : ∀ a, (t.array a).bare = (s.array a).bare) : t.bare = s.bare := by
  have e : mapTable (fun _ r => ArrayRecord.bare r) t.cu.arrays = mapTable (fun _ r => ArrayRecord.bare r) s.cu.arrays :=
    table_ext fun i => by rw [mapTable_get, mapTable_get]; exact a i
  have k : t.sansCurtailment.pending = s.sansCurtailment.pending ∧ t.sansCurtailment.clock = s.sansCurtailment.clock := by
    rw [h]; exact ⟨rfl, rfl⟩
  cases s with | mk _ _ _ _ _ _ _ _ _ cs =>
  cases t with | mk _ _ _ _ _ _ _ _ _ ct =>
  cases cs; cases ct
  simp only [State.bare, State.sansCurtailment] at *
  simp_all

/-! ## What the judgements read -/

/-- The state that targets and judgements read: bare, and without the CU's timers, claims and pending swap. -/
def State.judged (s : State) : State :=
  { s.bare with cu := { s.bare.cu with
    sharePeriod := 0, releaseDelay := none, claim := none, releaseWaiting := false, swapPending := false, resumeState := none } }

theorem State.judged_array (s : State) (a : ArrayNo) : s.judged.array a = (s.array a).bare :=
  s.bare_array a

theorem State.judged_contactOf (s : State) (a : ArrayNo) : s.judged.contactOf (.array a) = s.contactOf (.array a) := by
  simp only [State.contactOf, State.addrOf, State.judged_array]; rfl

theorem State.judged_reachable (s : State) (a : ArrayNo) : s.judged.reachable a = s.reachable a := by
  simp only [State.reachable, State.judged_contactOf]

theorem State.judged_share (s : State) (a : ArrayNo) : s.judged.share a = s.share a := rfl

theorem State.judged_definedArrays (s : State) : s.judged.definedArrays = s.definedArrays := by
  simp only [State.definedArrays, State.judged_array]; rfl

theorem State.judged_weights (s : State) : s.judged.weights = s.weights := by
  simp only [State.weights, State.judged_definedArrays, State.judged_share, State.judged_reachable]

theorem State.judged_ceiling (s : State) : s.judged.ceiling = s.ceiling := rfl

theorem State.judged_exposure (s : State) : s.judged.exposure = s.exposure :=
  sumOver_mapTable ArrayRecord.exposure _ _ fun _ _ => rfl

theorem State.judged_targetOf (s : State) (a : ArrayNo) : s.judged.targetOf a = s.targetOf a := by
  simp only [State.targetOf, State.judged_array, State.judged_reachable, State.judged_weights, State.judged_ceiling,
    State.judged_share]
  rfl

theorem State.judged_totalOutput (s : State) : s.judged.totalOutput = s.totalOutput := by
  simp only [State.totalOutput, State.judged_definedArrays, State.judged_array]; rfl

theorem State.judged_engages (s : State) : s.judged.engages = s.engages := by
  simp only [State.engages, State.judged_totalOutput, State.judged_exposure, State.judged_ceiling]; rfl

theorem State.judged_releaseHolds (s : State) : s.judged.releaseHolds = s.releaseHolds := by
  simp only [State.releaseHolds, State.judged_definedArrays, State.judged_array, State.judged_ceiling]; rfl

theorem State.judged_mayOrder (s : State) (a : ArrayNo) : s.judged.mayOrder a = s.mayOrder a := by
  simp only [State.mayOrder, State.judged_array, State.judged_reachable]; rfl

theorem State.judged_releaseNeeds (s : State) : s.judged.releaseNeeds = s.releaseNeeds := by
  simp only [State.releaseNeeds, State.judged_definedArrays, State.judged_array, State.releaseLevelOf]; rfl

/-- Two states that are judged alike agree on every judgement of the CU. -/
structure Alike (s t : State) : Prop where
  array    : ∀ a, (t.array a).bare = (s.array a).bare
  target   : ∀ a, t.targetOf a = s.targetOf a
  engages  : t.engages = s.engages
  releases : t.releaseHolds = s.releaseHolds
  mayOrder : ∀ a, t.mayOrder a = s.mayOrder a
  needs    : t.releaseNeeds = s.releaseNeeds
  exposure : t.exposure = s.exposure
  ceiling  : t.ceiling = s.ceiling
  state    : t.cu.state = s.cu.state
  active   : t.active = s.active

theorem Alike.of_judged {s t : State} (h : t.judged = s.judged) : Alike s t where
  array a := by rw [← State.judged_array, ← State.judged_array, h]
  target a := by rw [← State.judged_targetOf, ← State.judged_targetOf s, h]
  engages := by rw [← State.judged_engages, ← State.judged_engages s, h]
  releases := by rw [← State.judged_releaseHolds, ← State.judged_releaseHolds s, h]
  mayOrder a := by rw [← State.judged_mayOrder, ← State.judged_mayOrder s, h]
  needs := by rw [← State.judged_releaseNeeds, ← State.judged_releaseNeeds s, h]
  exposure := by rw [← State.judged_exposure, ← State.judged_exposure s, h]
  ceiling := by rw [← State.judged_ceiling, ← State.judged_ceiling s, h]
  state := by have e := congrArg (fun u : State => u.cu.state) h; exact e
  active := by have e := congrArg State.active h; exact e

theorem State.judged_of_bare {s t : State} (h : t.bare = s.bare) : t.judged = s.judged := by
  simp only [State.judged, h]

theorem Alike.of_bare {s t : State} (h : t.bare = s.bare) : Alike s t := Alike.of_judged (State.judged_of_bare h)

theorem Alike.trans {s t u : State} (h : Alike s t) (k : Alike t u) : Alike s u where
  array a := (k.array a).trans (h.array a)
  target a := (k.target a).trans (h.target a)
  engages := k.engages.trans h.engages
  releases := k.releases.trans h.releases
  mayOrder a := (k.mayOrder a).trans (h.mayOrder a)
  needs := k.needs.trans h.needs
  exposure := k.exposure.trans h.exposure
  ceiling := k.ceiling.trans h.ceiling
  state := k.state.trans h.state
  active := k.active.trans h.active

/-! ## The CU's orders keep the bare state -/

theorem State.push_bare (s : State) (e : Instr) : (s.push e).bare = s.bare := rfl
theorem State.pushAll_bare (s : State) (l : List Instr) : (s.pushAll l).bare = s.bare := rfl
theorem State.notice_bare (s : State) (n : Notice) : (s.notice n).bare = s.bare := rfl
theorem State.took_bare (s : State) (e : Instr) : (s.took e).bare = s.bare := rfl
theorem State.withdraw_bare (s : State) (r : UnitRec) (k : OrderKind) (b : Block) : (s.withdraw r k b).bare = s.bare := rfl

/-- A write of one ordered cap. -/
theorem State.setOrdered_bare (s : State) (a : ArrayNo) (c : Option Cap) :
    (s.setArray a { s.array a with ordered := c }).bare = s.bare := by
  refine State.bare_eq (s := s) (t := s.setArray a { s.array a with ordered := c }) rfl rfl ?_
  intro b
  by_cases h : b = a
  · subst h; simp [ArrayRecord.bare]
  · rw [State.array_setArray_ne _ _ (Ne.symm h)]

/-- A write of one mark of a lowering. -/
theorem State.markLowered_bare (s : State) (a : ArrayNo) : (s.markLowered a).bare = s.bare := by
  refine State.bare_eq (s := s) (t := s.markLowered a) rfl rfl ?_
  intro b
  unfold State.markLowered
  by_cases h : b = a
  · subst h; simp [ArrayRecord.bare]
  · rw [State.array_setArray_ne _ _ (Ne.symm h)]

theorem State.placeHold_bare (s : State) (a : ArrayNo) (c : Kw) (u : Bool) : (s.placeHold a c u).bare = s.bare :=
  State.setOrdered_bare s a (some (.kw c))

theorem State.placeRelease_bare (s : State) (a : ArrayNo) : (s.placeRelease a).bare = s.bare :=
  State.setOrdered_bare s a (some .unheld)

theorem State.lower_bare (s : State) (a : ArrayNo) : (s.lower a).bare = s.bare := by
  simp only [State.lower]; split
  · rw [State.markLowered_bare, State.placeHold_bare]
  · rfl

theorem State.freshHold_bare (s : State) (a : ArrayNo) : (s.freshHold a).bare = s.bare := by
  simp only [State.freshHold]; split
  · exact State.placeHold_bare _ _ _ _
  · rfl

theorem State.freshIfBare_bare (s : State) (a : ArrayNo) : (s.freshIfBare a).bare = s.bare := by
  simp only [State.freshIfBare]; split
  · exact State.freshHold_bare _ _
  · rfl

theorem State.renew_bare (s : State) (a : ArrayNo) : (s.renew a).bare = s.bare := by
  simp only [State.renew]; repeat' split
  all_goals simp only [State.placeHold_bare]

theorem State.orderCovered_bare (s : State) (a : ArrayNo) : (s.orderCovered a).bare = s.bare := by
  simp only [State.orderCovered]; repeat' split
  all_goals simp only [State.placeHold_bare, State.placeRelease_bare]

theorem State.orderRaised_bare (s : State) (a : ArrayNo) : (s.orderRaised a).bare = s.bare := by
  simp only [State.orderRaised]; repeat' split
  all_goals simp only [State.placeHold_bare, State.placeRelease_bare]

theorem State.releaseArray_bare (s : State) (a : ArrayNo) : (s.releaseArray a).bare = s.bare := by
  simp only [State.releaseArray]; repeat' split
  all_goals simp only [State.placeHold_bare, State.placeRelease_bare]

theorem State.syncOrdered_bare (s : State) (a : ArrayNo) : (s.syncOrdered a).bare = s.bare := by
  simp only [State.syncOrdered]; split
  · exact State.setOrdered_bare _ _ _
  · rfl

/-- A run of steps that each keep the bare state. -/
theorem State.foldl_bare {α : Type} (f : State → α → State) (hf : ∀ s a, (f s a).bare = s.bare) (l : List α) (s : State) :
    (l.foldl f s).bare = s.bare := by
  induction l generalizing s with
  | nil => rfl
  | cons a l ih => rw [List.foldl_cons, ih, hf]

theorem State.renewals_bare (s : State) : s.renewals.bare = s.bare := State.foldl_bare _ State.renew_bare _ _

theorem State.workTargets_bare (s : State) : s.workTargets.bare = s.retarget.bare :=
  State.foldl_bare _ State.lower_bare _ _

/-! ## Arrays that keep all but target and ordered cap -/

theorem State.sameArray_refl (s : State) (a : ArrayNo) : s.sameArray s a := rfl

theorem State.sameArray_trans {s t u : State} {a : ArrayNo} (h : s.sameArray t a) (k : t.sameArray u a) :
    s.sameArray u a := by
  unfold State.sameArray State.arrayIs at *; rw [k, h]

/-- States alike but for tellings and ordered caps keep every array. -/
theorem State.sameArray_of_bare {s t : State} (h : t.bare = s.bare) (a : ArrayNo) : s.sameArray t a := by
  have e := (Alike.of_bare h).array a
  unfold State.sameArray State.arrayIs
  revert e
  cases t.array a; cases s.array a
  simp only [ArrayRecord.bare]
  intro e; cases e; rfl

theorem State.retarget_array (s : State) (a : ArrayNo) : s.retarget.array a = { s.array a with target := s.targetOf a } := by
  have h : s.retarget.cu.arrays = mapTable (fun a r => { r with target := s.targetOf a }) s.cu.arrays := rfl
  rw [State.array, h, mapTable_get]; rfl

theorem State.retarget_sameArray (s : State) (a : ArrayNo) : s.sameArray s.retarget a := by
  unfold State.sameArray State.arrayIs; rw [State.retarget_array]

/-- Targets do not read targets. -/
theorem State.retarget_targetOf (s : State) (a : ArrayNo) : s.retarget.targetOf a = s.targetOf a := by
  have d : s.retarget.definedArrays = s.definedArrays := by simp only [State.definedArrays, State.retarget_array]
  have r : ∀ b, s.retarget.reachable b = s.reachable b := by
    intro b; simp only [State.reachable, State.contactOf, State.addrOf, State.retarget_array]; rfl
  have w : s.retarget.weights = s.weights := by simp only [State.weights, d, r]; rfl
  simp only [State.targetOf, State.retarget_array, r, w]
  rfl

theorem State.workTargets_sameArray (s : State) (a : ArrayNo) : s.sameArray s.workTargets a :=
  State.sameArray_trans (s.retarget_sameArray a) (State.sameArray_of_bare s.workTargets_bare a)

/-! ## Targets and judgements -/

/-- A target that every array carries stays carried. -/
theorem State.targeted_of_judged {s t : State} (h : t.judged = s.judged) (k : s.targeted) : t.targeted := by
  intro a
  have e := congrArg ArrayRecord.target ((Alike.of_judged h).array a)
  rw [(Alike.of_judged h).target a, ← k a]; exact e

theorem State.retarget_targeted (s : State) : s.retarget.targeted := by
  intro a; rw [State.retarget_targetOf, State.retarget_array]

theorem State.workTargets_targeted (s : State) : s.workTargets.targeted :=
  State.targeted_of_judged (State.judged_of_bare s.workTargets_bare) s.retarget_targeted

/-- Working out targets changes no other judgement. -/
theorem State.retarget_engages (s : State) : s.retarget.engages = s.engages := by
  have d : s.retarget.definedArrays = s.definedArrays := by simp only [State.definedArrays, State.retarget_array]
  have e : s.retarget.cu.arrays = mapTable (fun a r => { r with target := s.targetOf a }) s.cu.arrays := rfl
  have x : s.retarget.exposure = s.exposure := by
    rw [State.exposure, e]; exact sumOver_mapTable ArrayRecord.exposure _ _ fun _ _ => rfl
  simp only [State.engages, State.totalOutput, d, x, State.retarget_array]
  rfl

theorem State.workTargets_engages (s : State) : s.workTargets.engages = s.engages :=
  (Alike.of_bare s.workTargets_bare).engages.trans s.retarget_engages

theorem State.workTargets_state (s : State) : s.workTargets.cu.state = s.cu.state := by
  rw [(Alike.of_bare s.workTargets_bare).state]; rfl

theorem State.workTargets_active (s : State) : s.workTargets.active = s.active := by
  rw [(Alike.of_bare s.workTargets_bare).active]; rfl

/-- Everything of the CU but its arrays is alike in states alike but for tellings and ordered caps. -/
theorem State.cu_of_bare {s t : State} (h : t.bare = s.bare) : t.cu = { s.cu with arrays := t.cu.arrays } := by
  have k := congrArg (fun u : State => { u.cu with arrays := s.cu.arrays }) h
  simp only [State.bare] at k
  generalize t.cu = c at *
  cases c
  simp only [Curtailment.mk.injEq, true_and] at k ⊢
  exact k

theorem State.workTargets_cu (s : State) : s.workTargets.cu = { s.cu with arrays := s.workTargets.cu.arrays } :=
  State.cu_of_bare (s := s.retarget) s.workTargets_bare

/-- A new release delay. -/
theorem State.setReleaseDelay_judged (s : State) (d : Timer) : (s.setReleaseDelay d).judged = s.judged := rfl

theorem State.setReleaseDelay_sameArray (s : State) (d : Timer) (a : ArrayNo) : s.sameArray (s.setReleaseDelay d) a := rfl

/-- The judgement of the release changes the release delay alone (R125). -/
theorem State.judgeRelease_eq (s : State) : ∃ d, s.judgeRelease = s.setReleaseDelay d := by
  unfold State.judgeRelease
  repeat' split
  · exact ⟨s.cu.releaseDelay, rfl⟩
  · exact ⟨_, rfl⟩
  · exact ⟨_, rfl⟩
  · exact ⟨s.cu.releaseDelay, rfl⟩

/-- What the judgement of engagement does (R124). -/
structure Engaging (s t : State) : Prop where
  arrays  : ∀ a, s.sameArray t a
  targets : t.targeted
  state   : t.cu.state = (if s.cu.state = .watch ∧ s.active ∧ s.engages then .engaged else s.cu.state)
  told    : s.cu.state = .watch → t.cu.state = .engaged → t.told (.noticeRaise .curtailEngaged)
  resumes : t.cu.resumeState = s.cu.resumeState
  claim   : t.cu.claim = s.cu.claim
  engages : t.engages = s.engages

/-- In WATCH, in RUN and RESTORE, where the test holds: ENGAGED with the notice and new targets (R124). -/
theorem State.judgeEngage_engaging (s : State) (h : s.targeted) : Engaging s s.judgeEngage := by
  unfold State.judgeEngage
  split
  · rename_i k
    let u : State := State.notice { s with cu := { s.cu with state := .engaged } } .curtailEngaged
    change Engaging s u.workTargets.judgeRelease
    obtain ⟨d, e⟩ := u.workTargets.judgeRelease_eq
    rw [e]
    have cu := u.workTargets_cu
    have t : u.workTargets.told (.noticeRaise .curtailEngaged) :=
      State.workTargets_told _ (List.mem_append_right _ (List.mem_singleton.mpr rfl))
    have al : Alike u.workTargets (u.workTargets.setReleaseDelay d) := Alike.of_judged (State.setReleaseDelay_judged _ d)
    have sa : ∀ a, s.sameArray u.workTargets a := fun a => State.sameArray_trans rfl (u.workTargets_sameArray a)
    have tg := u.workTargets_targeted
    have en : u.workTargets.engages = s.engages := (State.workTargets_engages u).trans rfl
    have us : u.cu = { s.cu with state := .engaged } := rfl
    generalize u.workTargets = w at *
    refine ⟨fun a => State.sameArray_trans (sa a) (State.setReleaseDelay_sameArray _ d a),
      State.targeted_of_judged (State.setReleaseDelay_judged _ d) tg, ?_, fun _ _ => t, ?_, ?_, al.engages.trans en⟩
    · rw [al.state, if_pos k, cu]; simp only [us]
    · change w.cu.resumeState = _; rw [cu]; simp only [us]
    · change w.cu.claim = _; rw [cu]; simp only [us]
  · rename_i k
    exact ⟨fun a => rfl, h, by rw [if_neg k], fun a b => by rw [a] at b; exact absurd b (by decide), rfl, rfl, rfl⟩

/-- A judgement that an exposure change calls for is no other than R124's, and none is made where the exposure stayed. -/
theorem State.judgeExposure_cases (b s : State) :
    (s.exposure = b.exposure ∧ State.judgeExposure b s = s)
      ∨ (s.exposure ≠ b.exposure ∧ State.judgeExposure b s = s.judgeEngage) := by
  unfold State.judgeExposure; split
  · exact .inl ⟨‹_›, rfl⟩
  · exact .inr ⟨‹_›, rfl⟩

end Sys2Proof.Machine
end

