-- ==== Sys2Proof/Laws/Commands.lean ====
section
/-! SUPPORT. A station command leaves the queue, the clock, the settings and the configuration lists alone, and keeps the
permit lists exact; the commands that write a setting or a configuration list have lemmas of their own. -/

set_option linter.unusedSimpArgs false
set_option linter.unusedTactic false
set_option linter.unreachableTactic false

namespace Sys2Proof.Machine

@[simp] theorem done_state (p : List Byte) (s : State) : (done p s).state = s := rfl
@[simp] theorem refuse_state (r : Reason) (s : State) : (refuse r s).state = s := rfl

@[simp] theorem State.cmdLookUp_fixed (kind index : Nat) (s : State) : (State.cmdLookUp kind index s).state.fixed = s.fixed := by
  simp only [State.cmdLookUp]
  repeat' split
  all_goals simp

@[simp] theorem State.cmdLookUp_listsExact (kind index : Nat) (s : State) (e₀ : s.listsExact) : (State.cmdLookUp kind index s).state.listsExact := by
  simp only [State.cmdLookUp]
  repeat' split
  all_goals simp (maxDischargeDepth := 20) [e₀]

@[simp] theorem State.cmdReadNotices_fixed (s : State) : (State.cmdReadNotices s).state.fixed = s.fixed := by
  simp only [State.cmdReadNotices]
  repeat' split
  all_goals simp

@[simp] theorem State.cmdReadNotices_listsExact (s : State) (e₀ : s.listsExact) : (State.cmdReadNotices s).state.listsExact := by
  simp only [State.cmdReadNotices]
  repeat' split
  all_goals simp (maxDischargeDepth := 20) [e₀]

@[simp] theorem State.cmdGetSetting_fixed (number : Nat) (s : State) : (State.cmdGetSetting number s).state.fixed = s.fixed := by
  simp only [State.cmdGetSetting]
  repeat' split
  all_goals simp

@[simp] theorem State.cmdGetSetting_listsExact (number : Nat) (s : State) (e₀ : s.listsExact) : (State.cmdGetSetting number s).state.listsExact := by
  simp only [State.cmdGetSetting]
  repeat' split
  all_goals simp (maxDischargeDepth := 20) [e₀]

@[simp] theorem State.cmdReserve_fixed (kw cls : Nat) (mayWait : Bool) (expiry : Option Nat) (s : State) :
    (State.cmdReserve kw cls mayWait expiry s).state.fixed = s.fixed := by
  have d := State.decideRequest_fixed s .station cls kw 0 mayWait (secs (s.setting .defaultWaitLimit)) expiry
  simp only [State.cmdReserve]
  repeat' split
  all_goals first | rfl | skip
  all_goals
    rename_i hd
    rw [hd] at d
    simpa using d

@[simp] theorem State.cmdReserve_listsExact (kw cls : Nat) (mayWait : Bool) (expiry : Option Nat) (s : State)
    (h : s.listsExact) : (State.cmdReserve kw cls mayWait expiry s).state.listsExact := by
  have d := State.decideRequest_listsExact s .station cls kw 0 mayWait (secs (s.setting .defaultWaitLimit)) expiry h
  simp only [State.cmdReserve]
  repeat' split
  all_goals first | exact h | skip
  all_goals
    rename_i hd
    rw [hd] at d
    simp only [done_state, refuse_state]
    first | exact d | exact State.settleAdmission_listsExact _ _ d

@[simp] theorem State.cmdAdjust_fixed (h : Handle) (kw : Nat) (s : State) :
    (State.cmdAdjust h kw s).state.fixed = s.fixed := by
  simp only [State.cmdAdjust]
  repeat' split
  all_goals first | rfl | (simp [(State.adjustPermit_ok ‹State.adjustPermit _ _ _ = .ok _›).1])

@[simp] theorem State.cmdAdjust_listsExact (h : Handle) (kw : Nat) (s : State) (e₀ : s.listsExact) :
    (State.cmdAdjust h kw s).state.listsExact := by
  simp only [State.cmdAdjust]
  repeat' split
  all_goals first
    | exact e₀
    | (simp [(State.adjustPermit_ok ‹State.adjustPermit _ _ _ = .ok _›).2 e₀])

@[simp] theorem State.cmdRetire_fixed (h : Handle) (s : State) : (State.cmdRetire h s).state.fixed = s.fixed := by
  simp only [State.cmdRetire]
  repeat' split
  all_goals simp

@[simp] theorem State.cmdRetire_listsExact (h : Handle) (s : State) (e₀ : s.listsExact) : (State.cmdRetire h s).state.listsExact := by
  simp only [State.cmdRetire]
  repeat' split
  all_goals simp (maxDischargeDepth := 20) [e₀]

@[simp] theorem State.cmdShedNow_fixed (h : Handle) (s : State) : (State.cmdShedNow h s).state.fixed = s.fixed := by
  simp only [State.cmdShedNow]
  repeat' split
  all_goals simp

@[simp] theorem State.cmdShedNow_listsExact (h : Handle) (s : State) (e₀ : s.listsExact) : (State.cmdShedNow h s).state.listsExact := by
  simp only [State.cmdShedNow]
  repeat' split
  all_goals simp (maxDischargeDepth := 20) [e₀]

@[simp] theorem State.cmdSetFeeder_fixed (feeder cls pickup : Nat) (lockout : Bool) (s : State) : (State.cmdSetFeeder feeder cls pickup lockout s).state.fixed = s.fixed := by
  simp only [State.cmdSetFeeder]
  repeat' split
  all_goals simp

@[simp] theorem State.cmdSetFeeder_listsExact (feeder cls pickup : Nat) (lockout : Bool) (s : State) (e₀ : s.listsExact) : (State.cmdSetFeeder feeder cls pickup lockout s).state.listsExact := by
  simp only [State.cmdSetFeeder]
  repeat' split
  all_goals simp (maxDischargeDepth := 20) [e₀]

@[simp] theorem State.cmdResetRotation_fixed (feeder : Nat) (s : State) : (State.cmdResetRotation feeder s).state.fixed = s.fixed := by
  simp only [State.cmdResetRotation]
  repeat' split
  all_goals simp

@[simp] theorem State.cmdResetRotation_listsExact (feeder : Nat) (s : State) (e₀ : s.listsExact) : (State.cmdResetRotation feeder s).state.listsExact := by
  simp only [State.cmdResetRotation]
  repeat' split
  all_goals simp (maxDischargeDepth := 20) [e₀]

@[simp] theorem State.cmdSetGenset_fixed (genset : Nat) (p : ProfileFields) (s : State) : (State.cmdSetGenset genset p s).state.fixed = s.fixed := by
  simp only [State.cmdSetGenset]
  repeat' split
  all_goals simp

@[simp] theorem State.cmdSetGenset_listsExact (genset : Nat) (p : ProfileFields) (s : State) (e₀ : s.listsExact) : (State.cmdSetGenset genset p s).state.listsExact := by
  simp only [State.cmdSetGenset]
  repeat' split
  all_goals simp (maxDischargeDepth := 20) [e₀]

@[simp] theorem State.cmdWriteStep_fixed (slot step kind arg limit : Nat) (s : State) : (State.cmdWriteStep slot step kind arg limit s).state.fixed = s.fixed := by
  simp only [State.cmdWriteStep]
  repeat' split
  all_goals simp

@[simp] theorem State.cmdWriteStep_listsExact (slot step kind arg limit : Nat) (s : State) (e₀ : s.listsExact) : (State.cmdWriteStep slot step kind arg limit s).state.listsExact := by
  simp only [State.cmdWriteStep]
  repeat' split
  all_goals simp (maxDischargeDepth := 20) [e₀]

@[simp] theorem State.cmdStart_fixed (genset : Nat) (s : State) : (State.cmdStart genset s).state.fixed = s.fixed := by
  simp only [State.cmdStart]
  repeat' split
  all_goals simp

@[simp] theorem State.cmdStart_listsExact (genset : Nat) (s : State) (e₀ : s.listsExact) : (State.cmdStart genset s).state.listsExact := by
  simp only [State.cmdStart]
  repeat' split
  all_goals simp (maxDischargeDepth := 20) [e₀]

@[simp] theorem State.cmdStop_fixed (genset : Nat) (force : Bool) (s : State) : (State.cmdStop genset force s).state.fixed = s.fixed := by
  simp only [State.cmdStop]
  repeat' split
  all_goals simp

@[simp] theorem State.cmdStop_listsExact (genset : Nat) (force : Bool) (s : State) (e₀ : s.listsExact) : (State.cmdStop genset force s).state.listsExact := by
  simp only [State.cmdStop]
  repeat' split
  all_goals simp (maxDischargeDepth := 20) [e₀]

@[simp] theorem State.cmdAbortStart_fixed (genset : Nat) (s : State) : (State.cmdAbortStart genset s).state.fixed = s.fixed := by
  simp only [State.cmdAbortStart]
  repeat' split
  all_goals simp

@[simp] theorem State.cmdAbortStart_listsExact (genset : Nat) (s : State) (e₀ : s.listsExact) : (State.cmdAbortStart genset s).state.listsExact := by
  simp only [State.cmdAbortStart]
  repeat' split
  all_goals simp (maxDischargeDepth := 20) [e₀]

@[simp] theorem State.cmdClearFailed_fixed (genset : Nat) (s : State) : (State.cmdClearFailed genset s).state.fixed = s.fixed := by
  simp only [State.cmdClearFailed]
  repeat' split
  all_goals simp

@[simp] theorem State.cmdClearFailed_listsExact (genset : Nat) (s : State) (e₀ : s.listsExact) : (State.cmdClearFailed genset s).state.listsExact := by
  simp only [State.cmdClearFailed]
  repeat' split
  all_goals simp (maxDischargeDepth := 20) [e₀]

@[simp] theorem State.cmdLockOut_fixed (genset : Nat) (s : State) : (State.cmdLockOut genset s).state.fixed = s.fixed := by
  simp only [State.cmdLockOut]
  repeat' split
  all_goals simp

@[simp] theorem State.cmdLockOut_listsExact (genset : Nat) (s : State) (e₀ : s.listsExact) : (State.cmdLockOut genset s).state.listsExact := by
  simp only [State.cmdLockOut]
  repeat' split
  all_goals simp (maxDischargeDepth := 20) [e₀]

@[simp] theorem State.cmdUnlock_fixed (genset : Nat) (s : State) : (State.cmdUnlock genset s).state.fixed = s.fixed := by
  simp only [State.cmdUnlock]
  repeat' split
  all_goals simp

@[simp] theorem State.cmdUnlock_listsExact (genset : Nat) (s : State) (e₀ : s.listsExact) : (State.cmdUnlock genset s).state.listsExact := by
  simp only [State.cmdUnlock]
  repeat' split
  all_goals simp (maxDischargeDepth := 20) [e₀]

@[simp] theorem State.cmdSetArray_fixed (array nameplate fallback : Nat) (s : State) : (State.cmdSetArray array nameplate fallback s).state.fixed = s.fixed := by
  simp only [State.cmdSetArray]
  repeat' split
  all_goals simp

@[simp] theorem State.cmdSetArray_listsExact (array nameplate fallback : Nat) (s : State) (e₀ : s.listsExact) : (State.cmdSetArray array nameplate fallback s).state.listsExact := by
  simp only [State.cmdSetArray]
  repeat' split
  all_goals simp (maxDischargeDepth := 20) [e₀]

@[simp] theorem State.cmdSetShare_fixed (bank array weight limit : Nat) (enabled : Bool) (s : State) : (State.cmdSetShare bank array weight limit enabled s).state.fixed = s.fixed := by
  simp only [State.cmdSetShare]
  repeat' split
  all_goals simp

@[simp] theorem State.cmdSetShare_listsExact (bank array weight limit : Nat) (enabled : Bool) (s : State) (e₀ : s.listsExact) : (State.cmdSetShare bank array weight limit enabled s).state.listsExact := by
  simp only [State.cmdSetShare]
  repeat' split
  all_goals simp (maxDischargeDepth := 20) [e₀]

@[simp] theorem State.cmdSwapBanks_fixed (s : State) : (State.cmdSwapBanks s).state.fixed = s.fixed := by
  simp only [State.cmdSwapBanks]
  repeat' split
  all_goals simp

@[simp] theorem State.cmdSwapBanks_listsExact (s : State) (e₀ : s.listsExact) : (State.cmdSwapBanks s).state.listsExact := by
  simp only [State.cmdSwapBanks]
  repeat' split
  all_goals simp (maxDischargeDepth := 20) [e₀]

@[simp] theorem State.cmdCurtailOn_fixed (s : State) : (State.cmdCurtailOn s).state.fixed = s.fixed := by
  simp only [State.cmdCurtailOn]
  repeat' split
  all_goals simp

@[simp] theorem State.cmdCurtailOn_listsExact (s : State) (e₀ : s.listsExact) : (State.cmdCurtailOn s).state.listsExact := by
  simp only [State.cmdCurtailOn]
  repeat' split
  all_goals simp (maxDischargeDepth := 20) [e₀]

@[simp] theorem State.cmdCurtailOff_fixed (s : State) : (State.cmdCurtailOff s).state.fixed = s.fixed := by
  simp only [State.cmdCurtailOff]
  repeat' split
  all_goals simp

@[simp] theorem State.cmdCurtailOff_listsExact (s : State) (e₀ : s.listsExact) : (State.cmdCurtailOff s).state.listsExact := by
  simp only [State.cmdCurtailOff]
  repeat' split
  all_goals simp (maxDischargeDepth := 20) [e₀]

@[simp] theorem State.cmdRun_fixed (s : State) : (State.cmdRun s).state.fixed = s.fixed := by
  simp only [State.cmdRun]
  repeat' split
  all_goals simp

@[simp] theorem State.cmdRun_listsExact (s : State) (e₀ : s.listsExact) : (State.cmdRun s).state.listsExact := by
  simp only [State.cmdRun]
  repeat' split
  all_goals simp (maxDischargeDepth := 20) [e₀]

@[simp] theorem State.cmdRestart_fixed (s : State) : (State.cmdRestart s).state.fixed = s.fixed := by
  simp only [State.cmdRestart]
  repeat' split
  all_goals simp

@[simp] theorem State.cmdRestart_listsExact (s : State) (e₀ : s.listsExact) : (State.cmdRestart s).state.listsExact := by
  simp only [State.cmdRestart]
  repeat' split
  all_goals simp (maxDischargeDepth := 20) [e₀]

@[simp] theorem State.cmdFinishRestore_fixed (s : State) : (State.cmdFinishRestore s).state.fixed = s.fixed := by
  simp only [State.cmdFinishRestore]
  repeat' split
  all_goals simp

@[simp] theorem State.cmdFinishRestore_listsExact (s : State) (e₀ : s.listsExact) : (State.cmdFinishRestore s).state.listsExact := by
  simp only [State.cmdFinishRestore]
  repeat' split
  all_goals simp (maxDischargeDepth := 20) [e₀]

@[simp] theorem State.cmdStandDown_fixed (s : State) : (State.cmdStandDown s).state.fixed = s.fixed := by
  simp only [State.cmdStandDown]
  repeat' split
  all_goals simp

@[simp] theorem State.cmdStandDown_listsExact (s : State) (e₀ : s.listsExact) : (State.cmdStandDown s).state.listsExact := by
  simp only [State.cmdStandDown]
  repeat' split
  all_goals simp (maxDischargeDepth := 20) [e₀]

@[simp] theorem State.cmdResume_fixed (s : State) : (State.cmdResume s).state.fixed = s.fixed := by
  simp only [State.cmdResume]
  repeat' split
  all_goals simp

@[simp] theorem State.cmdResume_listsExact (s : State) (e₀ : s.listsExact) : (State.cmdResume s).state.listsExact := by
  simp only [State.cmdResume]
  repeat' split
  all_goals simp (maxDischargeDepth := 20) [e₀]

@[simp] theorem State.cmdSetUnit_fixed (address kind record : Nat) (s : State) : (State.cmdSetUnit address kind record s).state.fixed = s.fixed := by
  simp only [State.cmdSetUnit]
  repeat' split
  all_goals simp

@[simp] theorem State.cmdSetUnit_listsExact (address kind record : Nat) (s : State) (e₀ : s.listsExact) : (State.cmdSetUnit address kind record s).state.listsExact := by
  simp only [State.cmdSetUnit]
  repeat' split
  all_goals simp (maxDischargeDepth := 20) [e₀]

@[simp] theorem State.cmdSoftReset_fixed (s : State) : (State.cmdSoftReset s).state.fixed = s.fixed := by
  simp only [State.cmdSoftReset]
  repeat' split
  all_goals simp

@[simp] theorem State.cmdSoftReset_listsExact (s : State) (_ : s.listsExact) : (State.cmdSoftReset s).state.listsExact := by
  simp only [State.cmdSoftReset]
  repeat' split
  all_goals simp (maxDischargeDepth := 20)

/-! ## The commands that write a setting or a configuration list -/

theorem State.settingTaken_sound {s : State} (h : s.sound) {st : Setting} {v : Nat} (hv : st.inRange v = true) :
    (State.settingTaken st v s).sound := by
  have hq : (s.putSetting st v).sound := ⟨State.putSetting_inRange h.1 hv, h.2.1, h.2.2⟩
  have e₀ := h.2.2
  refine State.sound_of_fixed hq ?_ ?_
  · unfold State.settingTaken
    dsimp only
    repeat' split
    all_goals simp
  · unfold State.settingTaken
    dsimp only
    repeat' split
    all_goals simp (maxDischargeDepth := 20) [e₀]

theorem State.cmdSetSetting_sound (number value : Nat) {s : State} (h : s.sound) :
    (State.cmdSetSetting number value s).state.sound := by
  simp only [State.cmdSetSetting]
  repeat' split
  all_goals first
    | exact h
    | exact State.settingTaken_sound h (by simp_all)

theorem readIndices_length {n : Nat} {l : List Nat} {r : List (Fin n)} (h : readIndices n l = some r) :
    r.length = l.length := by
  unfold readIndices at h
  induction l generalizing r with
  | nil => simp at h; simp [← h]
  | cons a l ih =>
    simp only [List.mapM_cons, bind, Option.bind_eq_some_iff, pure] at h
    obtain ⟨x, hx, y, hy, e⟩ := h
    injection e with e
    rw [← e]; simp [ih hy]

theorem atMost_count {α : Type} [BEq α] [LawfulBEq α] {k : Nat} {l : List α} (h : atMost k l = true) (a : α) :
    l.count a ≤ k := by
  by_cases m : a ∈ l
  · simpa using (List.all_eq_true.1 h) a m
  · simp [List.count_eq_zero.2 m]

theorem State.setPolls_sound {s : State} (h : s.sound) (l : List Addr) (hl : l.length ≤ 48 ∧ ∀ a, l.count a ≤ 4) :
    (s.setPolls l).sound := by
  have hx := State.setPolls_fixed s l
  have t : State.sound { s with flc := { s.flc with pollList := l } } :=
    ⟨h.1, ⟨hl, h.2.1.2.1, h.2.1.2.2⟩, h.2.2⟩
  exact State.sound_of t (congrArg Fixed.settings hx) (congrArg Fixed.polls hx) (congrArg Fixed.leads hx)
    (congrArg Fixed.walk hx) (by simp [h.2.2])

theorem State.cmdSetPollList_sound (l : List Nat) {s : State} (h : s.sound) : (State.cmdSetPollList l s).state.sound := by
  simp only [State.cmdSetPollList]
  repeat' split
  all_goals first | exact h | skip
  rename_i hl _ _ hm hc _
  refine State.setPolls_sound h _ ⟨?_, fun a => atMost_count (by simpa using hc) a⟩
  have := readIndices_length hm
  simp at this hl; omega

theorem State.cmdSetLeadOrder_sound (l : List Nat) {s : State} (h : s.sound) :
    (State.cmdSetLeadOrder l s).state.sound := by
  simp only [State.cmdSetLeadOrder]
  repeat' split
  all_goals first | exact h | skip
  rename_i r _ hc _
  have hn : r.Nodup := List.nodup_iff_count_le_one.2 (fun a => atMost_count (by simpa using hc) a)
  exact ⟨h.1, ⟨h.2.1.1, hn, h.2.1.2.2⟩, h.2.2⟩

/-- The Restore List with one entry written keeps its form. -/
theorem restore_written {l : List RestoreEntry} {k : Nat} {e : RestoreEntry} (hk : k ≤ 23) (hl : l.length ≤ 24)
    (hkl : k ≤ l.length) (hn : (l.map RestoreEntry.feeder).Nodup)
    (hc : ((l.take k) ++ l.drop (k + 1)).any (fun j => j.feeder == e.feeder) = false) :
    (l.take k ++ e :: l.drop (k + 1)).length ≤ 24 ∧ ((l.take k ++ e :: l.drop (k + 1)).map RestoreEntry.feeder).Nodup := by
  refine ⟨by simp; omega, ?_⟩
  simp only [List.map_append, List.map_cons]
  rw [List.nodup_middle]
  refine List.nodup_cons.2 ⟨?_, ?_⟩
  · rw [← List.map_append, List.mem_map]
    rintro ⟨x, hx, hxe⟩
    have := List.any_eq_false.1 hc x hx
    simp [hxe] at this
  · rw [← List.map_append]
    refine hn.sublist (List.Sublist.map _ ?_)
    have : (l.take k ++ l.drop (k + 1)).Sublist (l.take k ++ l.drop k) :=
      List.Sublist.append (List.Sublist.refl _) (by rw [← List.drop_drop]; exact List.drop_sublist _ _)
    rwa [List.take_append_drop] at this

theorem State.cmdSetRestoreEntry_sound (k f kw d : Nat) {s : State} (h : s.sound) :
    (State.cmdSetRestoreEntry k f kw d s).state.sound := by
  have w : ∀ l : List RestoreEntry, (l.length ≤ 24 ∧ (l.map RestoreEntry.feeder).Nodup) →
      State.sound { s with ic := { s.ic with restoreList := l } } :=
    fun l hl => ⟨h.1, ⟨h.2.1.1, h.2.1.2.1, hl⟩, h.2.2⟩
  obtain ⟨hl, hn⟩ := h.2.1.2.2
  simp only [State.cmdSetRestoreEntry]
  repeat' split
  all_goals first | exact h | skip
  · refine w _ ⟨by simp; omega, ?_⟩
    rw [List.map_take]; exact hn.sublist (List.take_sublist _ _)
  · rename_i hp _ _ _ _ _ hc _
    exact w _ (restore_written (by omega) hl (by omega) hn (by simpa using hc))

end Sys2Proof.Machine
end

