-- ==== Sys2Proof/Laws/Entries.lean ====
section
/-! SUPPORT. The entries into the island states and the advance of the walk, each in one lemma: what the state is after them and
what is told (R138, R143, R147, R152, R153, R157). -/

namespace Sys2Proof.Machine

/-- The clearing of the IC need changes the Need Register and the tellings alone. -/
theorem State.clearIcNeed_eq (s : State) :
    ∃ l, s.clearIcNeed = { s with needs := { s.needs with ic := none }, events := s.events ++ l } := by
  unfold State.clearIcNeed
  split
  · exact ⟨updates s { s with needs := { s.needs with ic := none } }, rfl⟩
  · rename_i h
    refine ⟨[], ?_⟩
    cases s with | mk p e c r pi n => cases n with | mk a b => simp_all

/-- Entry to DARK (R143). -/
theorem State.enterDark_entered (s : State) : s.darkEntered s.enterDark := by
  obtain ⟨l, h⟩ := s.clearIcNeed_eq
  have e : s.enterDark = { s with
      events := s.events ++ l ++ (.noticeRaise .islandState :: tellings s.ic.state .dark)
      needs := { s.needs with ic := none }
      ic := { s.ic with
        state := .dark, walkPhase := none, walkPermit := none, settle := none, walkPointer := 0, standDown := false
        complete := false, adoptionSet := [], leadIndex := 0, lead := none, decision := none
        holdoff := if s.ic.heldLive then s.ic.holdoff else some (s.setting .restartHoldoff * 1000) } } := by
    unfold State.enterDark
    rw [h]
    cases q : s.ic.heldLive <;>
      simp [State.dropWalk, q, State.enterIsland, State.startHoldoff, State.pushAll, secs, State.setting]
  rw [e]
  exact ⟨rfl, rfl, rfl, by simp [tellings]⟩

/-- Entry to RUN at the end of the walk (R157). -/
theorem State.enterRun_entered (s : State) : s.runEntered s.enterRun := by
  obtain ⟨l, h⟩ := s.clearIcNeed_eq
  have e : s.enterRun = { s with
      events := s.events ++ l ++ (.noticeRaise .islandState :: tellings s.ic.state .run)
      needs := { s.needs with ic := none }
      ic := { s.ic with
        state := .run, walkPhase := none, walkPermit := none, settle := none, walkPointer := 0, rounds := 0 } } := by
    unfold State.enterRun
    rw [h]
    rfl
  rw [e]
  exact ⟨rfl, rfl, rfl, by simp [tellings]⟩

/-- Entry to RESTART with a first lead (R147). -/
theorem State.enterRestart_entered (s : State) (g : GensetNo) (l : List GensetNo) (h : s.ic.leadOrder = g :: l) :
    s.restartEntered g s.enterRestart := by
  have e : s.enterRestart = { s with
      events := s.events ++ (.noticeRaise .islandState :: tellings s.ic.state .restart) ++ [.leadStartRequest g]
      ic := { s.ic with state := .restart, leadIndex := 0, lead := some g, holdoff := none, decision := none } } := by
    simp only [State.enterRestart, State.enterIsland, State.pushAll, h]
    rfl
  rw [e]
  exact ⟨rfl, rfl, rfl, by simp [tellings]⟩

/-- The relations do not read the tellings of the state they start from. -/
theorem State.darkEntered_events {s t : State} (l : List Instr) (h : State.darkEntered { s with events := l } t) :
    s.darkEntered t := ⟨h.1, h.2.1, by have := h.2.2.1; unfold State.onlyIsland at *; exact this, h.2.2.2⟩

theorem State.runEntered_events {s t : State} (l : List Instr) (h : State.runEntered { s with events := l } t) :
    s.runEntered t := ⟨h.1, h.2.1, by have := h.2.2.1; unfold State.onlyIsland at *; exact this, h.2.2.2⟩

/-- The skip test is the rule's (R153). -/
theorem State.skips_iff (s : State) (e : RestoreEntry) : s.skips e = true ↔ s.passedOver e := by
  have h : (s.feeder e.feeder).addr = none → s.contactOf (.feeder e.feeder) ≠ .inContact := by
    intro h; simp [State.contactOf, State.addrOf, h, State.contactAt]
  simp only [State.skips, State.passedOver, State.pickupOf, State.asked, Bool.or_eq_true, Option.isNone_iff_eq_none,
    bne_iff_ne, beq_iff_eq]
  constructor
  · rintro (((a | a) | a) | a)
    · exact .inl a
    · exact .inr (.inl (h a))
    · exact .inr (.inl a)
    · exact .inr (.inr a)
  · rintro (a | a | a)
    · exact .inl (.inl (.inl a))
    · exact .inl (.inr a)
    · exact .inr a

/-- The walk at an entry that may be walked asks for its permit and changes nothing else (R153). -/
theorem State.takeEntry_walkable {s : State} {e : RestoreEntry} (n : Nat)
    (h : s.ic.restoreList[s.ic.walkPointer]? = some e) (w : s.walkable e) :
    State.takeEntry (n + 1) s = s.push (.walkPermitRequest e.feeder (s.asked e)) := by
  have k : s.skips e = false := by rw [← Bool.not_eq_true, State.skips_iff]; exact w.1
  simp only [State.takeEntry, State.entryHere, h, k, w.2]
  rfl

/-- The walk past its end enters RUN (R152). -/
theorem State.takeEntry_end {s : State} (n : Nat) (h : s.ic.restoreList[s.ic.walkPointer]? = none) :
    State.takeEntry (n + 1) s = s.enterRun := by
  simp only [State.takeEntry, State.entryHere, h]

/-- An entry passed over is marked, its need cleared, and the next is taken (R153). -/
theorem State.takeEntry_over {s : State} {e : RestoreEntry} (n : Nat)
    (h : s.ic.restoreList[s.ic.walkPointer]? = some e) (w : s.passedOver e) :
    State.takeEntry (n + 1) s = State.takeEntry n s.clearIcNeed.markSkip.advanced := by
  have k : s.skips e = true := s.skips_iff e |>.mpr w
  simp only [State.takeEntry, State.entryHere, h, k]
  rfl

/-- The walk stays in its island state or enters RUN, and changes the island record, the needs and the tellings alone. -/
theorem State.takeEntry_only (n : Nat) (s : State) :
    s.onlyIsland (State.takeEntry n s)
      ∧ ((State.takeEntry n s).ic.state = s.ic.state ∨ (State.takeEntry n s).ic.state = .run) := by
  have trans : ∀ {a b c : State}, a.onlyIsland b → b.onlyIsland c → a.onlyIsland c := by
    intro a b c x y; unfold State.onlyIsland at *; rw [y, x]
  induction n generalizing s with
  | zero => exact ⟨rfl, .inl rfl⟩
  | succ n ih =>
    obtain ⟨l, h⟩ := s.clearIcNeed_eq
    have go : ∀ u : State, s.onlyIsland u → u.ic.state = s.ic.state →
        s.onlyIsland (State.takeEntry n u)
          ∧ ((State.takeEntry n u).ic.state = s.ic.state ∨ (State.takeEntry n u).ic.state = .run) := by
      intro u a b
      have := ih u
      exact ⟨trans a this.1, by rw [← b]; exact this.2⟩
    unfold State.takeEntry
    split
    · exact ⟨(s.enterRun_entered).2.2.1, .inr (by rw [(s.enterRun_entered).1])⟩
    · split
      · rw [h]; exact go _ rfl rfl
      · split
        · simp only [h]
          split
          · split
            · exact go _ rfl rfl
            · exact ⟨rfl, .inl rfl⟩
          · exact ⟨rfl, .inl rfl⟩
          · exact go _ rfl rfl
        · exact ⟨rfl, .inl rfl⟩

/-- The advance of the walk (R152). -/
theorem State.walkAdvance_advanced (s : State) : s.walkAdvanced s.walkAdvance := by
  have o := State.takeEntry_only (s.advanced.ic.restoreList.length + 2) s.advanced
  have e : s.walkAdvance = State.takeEntry (s.advanced.ic.restoreList.length + 1 + 1) s.advanced := rfl
  refine ⟨?_, o.2, fun h => ?_, fun x h w => ?_⟩
  · have := o.1; unfold State.onlyIsland at *; exact this
  · rw [e, State.takeEntry_end _ h]
    have := s.advanced.enterRun_entered
    refine ⟨this.1, this.2.1, ?_, this.2.2.2⟩
    have := this.2.2.1; unfold State.onlyIsland at *; exact this
  · rw [e, State.takeEntry_walkable _ h (by exact w)]
    exact ⟨rfl, rfl, List.mem_append_right _ (List.mem_singleton.mpr rfl)⟩

/-- The island record as RESTORE is entered, before the walk takes an entry (R152, R196). -/
theorem State.enterRestore_entered (s : State) : s.restoreEntered s.enterRestore := by
  have trans : ∀ {a b c : State}, a.onlyIsland b → b.onlyIsland c → a.onlyIsland c := by
    intro a b c x y; unfold State.onlyIsland at *; rw [y, x]
  let u : State := ({ s with ic := { s.ic with
    restoreList := s.ic.restoreList.map RestoreEntry.unskipped, walkPointer := 0, walkPhase := some .next
    walkPermit := none, settle := none, foreignLive := false, decision := none, lead := none } }).restoreTimers
  let v : State := u.enterIsland .restore
  have iu : u.ic.state = s.ic.state ∧ u.ic.restoreList = s.ic.restoreList.map RestoreEntry.unskipped
      ∧ u.ic.walkPointer = 0 ∧ u.onlyIsland s ∧ u.events = s.events ∧ u.needs = s.needs ∧ s.onlyIsland u := by
    simp only [u, State.restoreTimers]
    split
    · exact ⟨rfl, rfl, rfl, rfl, rfl, rfl, rfl⟩
    · split
      · exact ⟨rfl, rfl, rfl, rfl, rfl, rfl, rfl⟩
      · exact ⟨rfl, rfl, rfl, rfl, rfl, rfl, rfl⟩
  have sv : s.onlyIsland v := trans iu.2.2.2.2.2.2 rfl
  have ev : v.events = s.events ++ (.noticeRaise .islandState :: tellings s.ic.state .restore) := by
    simp only [v, State.enterIsland, State.pushAll, iu.1, iu.2.2.2.2.1]
  have nv : v.needs = s.needs := iu.2.2.2.2.2.1
  have lv : v.ic.restoreList = s.ic.restoreList.map RestoreEntry.unskipped := iu.2.1
  have pv : v.ic.walkPointer = 0 := iu.2.2.1
  have st : v.ic.state = .restore := rfl
  have vi : v.ic = s.restoring := by
    simp only [v, u, State.restoreTimers, State.restoring]
    cases a : s.ic.heldLive <;> cases b : s.pins.buslive <;> rfl
  have pa : v.paused = s.paused := by
    have h := sv; unfold State.onlyIsland at h
    have e : v.ic.standDown = s.ic.standDown := by
      simp only [v, u, State.restoreTimers]
      split
      · rfl
      · split <;> rfl
    simp only [State.paused, e]; rw [h]
  have wv : ∀ e : RestoreEntry, s.walkable e → v.walkable { e with skip := false } := by
    intro e w
    have h := sv; unfold State.onlyIsland at h
    rw [h]; exact w
  have as_ : ∀ e : RestoreEntry, v.asked { e with skip := false } = s.asked e := by
    intro e; have h := sv; unfold State.onlyIsland at h; rw [h]; rfl
  have told : ∀ t : State, (∀ x ∈ v.events, x ∈ t.events) →
      ∀ e ∈ [Instr.noticeRaise .islandState, .raIslandState s.ic.state .restore, .seIslandState .restore,
        .gsIslandState .restore, .cuRestoreEntry, .flcIslandState .restore], e ∈ t.events := by
    intro t h e k
    apply h; rw [ev]; apply List.mem_append_right; simpa [tellings] using k
  have e : s.enterRestore =
      (if v.ic.restoreList.isEmpty then v.enterRun else if v.paused then v else v.walkOn) := rfl
  have only : s.onlyIsland s.enterRestore ∧ (s.enterRestore.ic.state = .restore ∨ s.enterRestore.ic.state = .run)
      ∧ ∀ x ∈ v.events, x ∈ s.enterRestore.events := by
    rw [e]
    split
    · exact ⟨trans sv v.enterRun_entered.2.2.1, .inr (by rw [v.enterRun_entered.1]),
        fun x k => State.enterRun_told v k⟩
    · split
      · exact ⟨sv, .inl st, fun x k => k⟩
      · have := State.takeEntry_only (v.ic.restoreList.length + 2) v
        exact ⟨trans sv this.1, this.2, fun x k => State.walkOn_told v k⟩
  refine ⟨only.1, only.2.1, told _ only.2.2, ?_, ?_, ?_⟩
  · intro h
    have r := v.enterRun_entered
    have k : s.enterRestore = v.enterRun := by rw [e, lv, h]; rfl
    rw [k]
    refine ⟨r.1.trans ?_, r.2.1.trans (congrArg (fun n : Needs => { n with ic := none }) nv), ?_, r.2.2.2⟩
    · exact congrArg (fun i : Island => { i with
        state := .run, walkPhase := none, walkPermit := none, settle := none, walkPointer := 0, rounds := 0 }) vi
    · rw [k] at only; exact only.1
  · intro h p
    have k : s.enterRestore = v := by
      rw [e, lv, pa, p, if_pos rfl, if_neg (by simpa using h)]
    rw [k]; exact ⟨vi, nv⟩
  · intro x l h p w
    have k : s.enterRestore = v.push (.walkPermitRequest x.feeder (s.asked x)) := by
      rw [e, lv, pa, p, if_neg (by simp [h]), if_neg (by decide), State.walkOn,
        State.takeEntry_walkable _ (e := { x with skip := false }) (by rw [lv, pv, h]; rfl) (wv x w), as_]
    rw [k]; exact ⟨vi, nv, List.mem_append_right _ (List.mem_singleton.mpr rfl)⟩

/-- A live decision with its two answers (R149). -/
theorem State.judgeDecision_decided (s : State) (d : LiveDecision) (lead adopted : Bool) (hl : d.lead = some lead)
    (ha : d.adoption = some adopted) : s.decided lead adopted (s.judgeDecision d) := by
  have base : ∀ (q : Option LiveDecision) (i : Island) (t : State), State.darkEntered { s with ic := { i with decision := q } } t →
      State.darkEntered { s with ic := i } t := fun q i t h => ⟨h.1, h.2.1, h.2.2.1, h.2.2.2⟩
  refine ⟨fun h => ?_, fun h k => ?_, fun h k m => ?_⟩
  · have e : s.judgeDecision d = State.enterDark { s with ic := { s.ic with decision := none, foreignLive := false } } := by
      simp only [State.judgeDecision, hl, ha, h]; rfl
    rw [e]
    exact base none { s.ic with foreignLive := false } _ (State.enterDark_entered _)
  · have e : s.judgeDecision d = State.enterRestore { s with ic := { s.ic with decision := none } } := by
      have x : (lead || adopted) = true := by rcases k with k | k <;> simp [k]
      simp only [State.judgeDecision, hl, ha, h, x]; rfl
    rw [e]
    exact State.enterRestore_entered { s with ic := { s.ic with decision := none } }
  · have e : s.judgeDecision d = State.enterDark (State.markForeign { s with ic := { s.ic with decision := none } }) := by
      simp only [State.judgeDecision, hl, ha, h, k, m]; rfl
    rw [e]
    have r := State.enterDark_entered (State.markForeign { s with ic := { s.ic with decision := none } })
    refine ⟨State.enterDark_told _ (List.mem_append_right _ (List.mem_singleton.mpr rfl)), ?_⟩
    exact ⟨r.1, r.2.1, r.2.2.1, r.2.2.2⟩

end Sys2Proof.Machine
end

