-- ==== Sys2Proof/Laws/Exec.lean ====
section
/-! SUPPORT. What each command answers outside a reset, in one equation per command: the block's operation on the state with
the telling answered, and for a station command its result with the reply held. -/

namespace Sys2Proof.Machine

/-- What a station command's result leaves: its state, with the reply held and READY high (R180, R183). -/
def Result.leaves (i : Instr) (r : Result) : State := r.state.hold (r.toReply (requestCode i))

@[simp] theorem done_leaves (i : Instr) (p : List Byte) (s : State) :
    (done p s).leaves i = s.replied (requestCode i) p := rfl
@[simp] theorem refuse_leaves (i : Instr) (r : Reason) (s : State) :
    (refuse r s).leaves i = s.repliedRefused (requestCode i) r := rfl

theorem exec_null {s : State} (e₀ : s.inReset = false) :
    exec .null s =
      .next ((done [] (s.took .null)).leaves .null) :=
    State.station_run .null (done []) e₀
theorem exec_lookUp (kind index : Nat) {s : State} (e₀ : s.inReset = false) :
    exec (.lookUp kind index) s =
      .next ((State.cmdLookUp kind index (s.took (.lookUp kind index))).leaves (.lookUp kind index)) :=
    State.station_run (.lookUp kind index) (State.cmdLookUp kind index) e₀
theorem exec_readAccount {s : State} (e₀ : s.inReset = false) :
    exec .readAccount s =
      .next ((done (s.took .readAccount).accountRecord (s.took .readAccount)).leaves .readAccount) :=
    State.station_run .readAccount (fun t => done t.accountRecord t) e₀
theorem exec_readNotices {s : State} (e₀ : s.inReset = false) :
    exec .readNotices s =
      .next ((State.cmdReadNotices (s.took .readNotices)).leaves .readNotices) :=
    State.station_run .readNotices State.cmdReadNotices e₀
theorem exec_setSetting (number value : Nat) {s : State} (e₀ : s.inReset = false) :
    exec (.setSetting number value) s =
      .next ((State.cmdSetSetting number value (s.took (.setSetting number value))).leaves (.setSetting number value)) :=
    State.station_run (.setSetting number value) (State.cmdSetSetting number value) e₀
theorem exec_getSetting (number : Nat) {s : State} (e₀ : s.inReset = false) :
    exec (.getSetting number) s =
      .next ((State.cmdGetSetting number (s.took (.getSetting number))).leaves (.getSetting number)) :=
    State.station_run (.getSetting number) (State.cmdGetSetting number) e₀
theorem exec_softReset {s : State} (e₀ : s.inReset = false) :
    exec .softReset s =
      .next ((State.cmdSoftReset (s.took .softReset)).leaves .softReset) :=
    State.station_run .softReset State.cmdSoftReset e₀
theorem exec_reserve (kw cls : Nat) (mayWait : Bool) (expiry : Option Nat) {s : State} (e₀ : s.inReset = false) :
    exec (.reserve kw cls mayWait expiry) s =
      .next ((State.cmdReserve kw cls mayWait expiry (s.took (.reserve kw cls mayWait expiry))).leaves (.reserve kw cls mayWait expiry)) :=
    State.station_run (.reserve kw cls mayWait expiry) (State.cmdReserve kw cls mayWait expiry) e₀
theorem exec_adjust (h : Handle) (kw : Nat) {s : State} (e₀ : s.inReset = false) :
    exec (.adjust h kw) s =
      .next ((State.cmdAdjust h kw (s.took (.adjust h kw))).leaves (.adjust h kw)) :=
    State.station_run (.adjust h kw) (State.cmdAdjust h kw) e₀
theorem exec_retire (h : Handle) {s : State} (e₀ : s.inReset = false) :
    exec (.retire h) s =
      .next ((State.cmdRetire h (s.took (.retire h))).leaves (.retire h)) :=
    State.station_run (.retire h) (State.cmdRetire h) e₀
theorem exec_setFeeder (feeder cls pickup : Nat) (lockout : Bool) {s : State} (e₀ : s.inReset = false) :
    exec (.setFeeder feeder cls pickup lockout) s =
      .next ((State.cmdSetFeeder feeder cls pickup lockout (s.took (.setFeeder feeder cls pickup lockout))).leaves (.setFeeder feeder cls pickup lockout)) :=
    State.station_run (.setFeeder feeder cls pickup lockout) (State.cmdSetFeeder feeder cls pickup lockout) e₀
theorem exec_shedNow (h : Handle) {s : State} (e₀ : s.inReset = false) :
    exec (.shedNow h) s =
      .next ((State.cmdShedNow h (s.took (.shedNow h))).leaves (.shedNow h)) :=
    State.station_run (.shedNow h) (State.cmdShedNow h) e₀
theorem exec_resetRotation (feeder : Nat) {s : State} (e₀ : s.inReset = false) :
    exec (.resetRotation feeder) s =
      .next ((State.cmdResetRotation feeder (s.took (.resetRotation feeder))).leaves (.resetRotation feeder)) :=
    State.station_run (.resetRotation feeder) (State.cmdResetRotation feeder) e₀
theorem exec_setGenset (genset : Nat) (profile : ProfileFields) {s : State} (e₀ : s.inReset = false) :
    exec (.setGenset genset profile) s =
      .next ((State.cmdSetGenset genset profile (s.took (.setGenset genset profile))).leaves (.setGenset genset profile)) :=
    State.station_run (.setGenset genset profile) (State.cmdSetGenset genset profile) e₀
theorem exec_writeStep (slot step kind arg limit : Nat) {s : State} (e₀ : s.inReset = false) :
    exec (.writeStep slot step kind arg limit) s =
      .next ((State.cmdWriteStep slot step kind arg limit (s.took (.writeStep slot step kind arg limit))).leaves (.writeStep slot step kind arg limit)) :=
    State.station_run (.writeStep slot step kind arg limit) (State.cmdWriteStep slot step kind arg limit) e₀
theorem exec_start (genset : Nat) {s : State} (e₀ : s.inReset = false) :
    exec (.start genset) s =
      .next ((State.cmdStart genset (s.took (.start genset))).leaves (.start genset)) :=
    State.station_run (.start genset) (State.cmdStart genset) e₀
theorem exec_stop (genset : Nat) (force : Bool) {s : State} (e₀ : s.inReset = false) :
    exec (.stop genset force) s =
      .next ((State.cmdStop genset force (s.took (.stop genset force))).leaves (.stop genset force)) :=
    State.station_run (.stop genset force) (State.cmdStop genset force) e₀
theorem exec_abortStart (genset : Nat) {s : State} (e₀ : s.inReset = false) :
    exec (.abortStart genset) s =
      .next ((State.cmdAbortStart genset (s.took (.abortStart genset))).leaves (.abortStart genset)) :=
    State.station_run (.abortStart genset) (State.cmdAbortStart genset) e₀
theorem exec_clearFailed (genset : Nat) {s : State} (e₀ : s.inReset = false) :
    exec (.clearFailed genset) s =
      .next ((State.cmdClearFailed genset (s.took (.clearFailed genset))).leaves (.clearFailed genset)) :=
    State.station_run (.clearFailed genset) (State.cmdClearFailed genset) e₀
theorem exec_lockOut (genset : Nat) {s : State} (e₀ : s.inReset = false) :
    exec (.lockOut genset) s =
      .next ((State.cmdLockOut genset (s.took (.lockOut genset))).leaves (.lockOut genset)) :=
    State.station_run (.lockOut genset) (State.cmdLockOut genset) e₀
theorem exec_unlock (genset : Nat) {s : State} (e₀ : s.inReset = false) :
    exec (.unlock genset) s =
      .next ((State.cmdUnlock genset (s.took (.unlock genset))).leaves (.unlock genset)) :=
    State.station_run (.unlock genset) (State.cmdUnlock genset) e₀
theorem exec_setArray (array nameplate fallback : Nat) {s : State} (e₀ : s.inReset = false) :
    exec (.setArray array nameplate fallback) s =
      .next ((State.cmdSetArray array nameplate fallback (s.took (.setArray array nameplate fallback))).leaves (.setArray array nameplate fallback)) :=
    State.station_run (.setArray array nameplate fallback) (State.cmdSetArray array nameplate fallback) e₀
theorem exec_setShare (bank array weight limit : Nat) (enabled : Bool) {s : State} (e₀ : s.inReset = false) :
    exec (.setShare bank array weight limit enabled) s =
      .next ((State.cmdSetShare bank array weight limit enabled (s.took (.setShare bank array weight limit enabled))).leaves (.setShare bank array weight limit enabled)) :=
    State.station_run (.setShare bank array weight limit enabled) (State.cmdSetShare bank array weight limit enabled) e₀
theorem exec_swapBanks {s : State} (e₀ : s.inReset = false) :
    exec .swapBanks s =
      .next ((State.cmdSwapBanks (s.took .swapBanks)).leaves .swapBanks) :=
    State.station_run .swapBanks State.cmdSwapBanks e₀
theorem exec_curtailOn {s : State} (e₀ : s.inReset = false) :
    exec .curtailOn s =
      .next ((State.cmdCurtailOn (s.took .curtailOn)).leaves .curtailOn) :=
    State.station_run .curtailOn State.cmdCurtailOn e₀
theorem exec_curtailOff {s : State} (e₀ : s.inReset = false) :
    exec .curtailOff s =
      .next ((State.cmdCurtailOff (s.took .curtailOff)).leaves .curtailOff) :=
    State.station_run .curtailOff State.cmdCurtailOff e₀
theorem exec_run {s : State} (e₀ : s.inReset = false) :
    exec .run s =
      .next ((State.cmdRun (s.took .run)).leaves .run) :=
    State.station_run .run State.cmdRun e₀
theorem exec_restart {s : State} (e₀ : s.inReset = false) :
    exec .restart s =
      .next ((State.cmdRestart (s.took .restart)).leaves .restart) :=
    State.station_run .restart State.cmdRestart e₀
theorem exec_finishRestore {s : State} (e₀ : s.inReset = false) :
    exec .finishRestore s =
      .next ((State.cmdFinishRestore (s.took .finishRestore)).leaves .finishRestore) :=
    State.station_run .finishRestore State.cmdFinishRestore e₀
theorem exec_setRestoreEntry (position feeder pickup settle : Nat) {s : State} (e₀ : s.inReset = false) :
    exec (.setRestoreEntry position feeder pickup settle) s =
      .next ((State.cmdSetRestoreEntry position feeder pickup settle (s.took (.setRestoreEntry position feeder pickup settle))).leaves (.setRestoreEntry position feeder pickup settle)) :=
    State.station_run (.setRestoreEntry position feeder pickup settle) (State.cmdSetRestoreEntry position feeder pickup settle) e₀
theorem exec_setLeadOrder (gensets : List Nat) {s : State} (e₀ : s.inReset = false) :
    exec (.setLeadOrder gensets) s =
      .next ((State.cmdSetLeadOrder gensets (s.took (.setLeadOrder gensets))).leaves (.setLeadOrder gensets)) :=
    State.station_run (.setLeadOrder gensets) (State.cmdSetLeadOrder gensets) e₀
theorem exec_standDown {s : State} (e₀ : s.inReset = false) :
    exec .standDown s =
      .next ((State.cmdStandDown (s.took .standDown)).leaves .standDown) :=
    State.station_run .standDown State.cmdStandDown e₀
theorem exec_resume {s : State} (e₀ : s.inReset = false) :
    exec .resume s =
      .next ((State.cmdResume (s.took .resume)).leaves .resume) :=
    State.station_run .resume State.cmdResume e₀
theorem exec_setUnit (address kind record : Nat) {s : State} (e₀ : s.inReset = false) :
    exec (.setUnit address kind record) s =
      .next ((State.cmdSetUnit address kind record (s.took (.setUnit address kind record))).leaves (.setUnit address kind record)) :=
    State.station_run (.setUnit address kind record) (State.cmdSetUnit address kind record) e₀
theorem exec_setPollList (addresses : List Nat) {s : State} (e₀ : s.inReset = false) :
    exec (.setPollList addresses) s =
      .next ((State.cmdSetPollList addresses (s.took (.setPollList addresses))).leaves (.setPollList addresses)) :=
    State.station_run (.setPollList addresses) (State.cmdSetPollList addresses) e₀
theorem exec_noticeRaise (n : Notice) {s : State} (e₀ : s.inReset = false) :
    exec (.noticeRaise n) s = .next ((s.took (.noticeRaise n)).raiseFlag n) :=
  State.taking_run (.noticeRaise n) (fun t => t.raiseFlag n) e₀
theorem exec_deadBusConfirmation {s : State} (e₀ : s.inReset = false) :
    exec .deadBusConfirmation s = .next (State.deadConfirmed (s.took .deadBusConfirmation)) :=
  State.taking_run .deadBusConfirmation State.deadConfirmed e₀
theorem exec_liveBusConfirmation {s : State} (e₀ : s.inReset = false) :
    exec .liveBusConfirmation s = .next (State.liveConfirmed (s.took .liveBusConfirmation)) :=
  State.taking_run .liveBusConfirmation State.liveConfirmed e₀
theorem exec_restartHoldoffExpiry {s : State} (e₀ : s.inReset = false) :
    exec .restartHoldoffExpiry s = .next (State.holdoffExpired (s.took .restartHoldoffExpiry)) :=
  State.taking_run .restartHoldoffExpiry State.holdoffExpired e₀
theorem exec_leadOutcome (o : LeadOutcome) {s : State} (e₀ : s.inReset = false) :
    exec (.leadOutcome o) s = .next ((s.took (.leadOutcome o)).leadEnded o) :=
  State.taking_run (.leadOutcome o) (fun t => t.leadEnded o) e₀
theorem exec_adoptionAnswer (why : AdoptionWhy) (adopted : List GensetNo) {s : State} (e₀ : s.inReset = false) :
    exec (.adoptionAnswer why adopted) s = .next ((s.took (.adoptionAnswer why adopted)).adoptionAnswered why adopted) :=
  State.taking_run (.adoptionAnswer why adopted) (fun t => t.adoptionAnswered why adopted) e₀
theorem exec_settleExpiry {s : State} (e₀ : s.inReset = false) :
    exec .settleExpiry s = .next (State.settleExpired (s.took .settleExpiry)) :=
  State.taking_run .settleExpiry State.settleExpired e₀
theorem exec_walkPermitAnswer (a : WalkAnswer) {s : State} (e₀ : s.inReset = false) :
    exec (.walkPermitAnswer a) s = .next ((s.took (.walkPermitAnswer a)).walkAnswered a.feeder a.kw a.permit) :=
  State.taking_run (.walkPermitAnswer a) (fun t => t.walkAnswered a.feeder a.kw a.permit) e₀
theorem exec_walkPermitOutcome (h : Handle) (granted : Bool) {s : State} (e₀ : s.inReset = false) :
    exec (.walkPermitOutcome h granted) s = .next ((s.took (.walkPermitOutcome h granted)).walkOutcome h granted) :=
  State.taking_run (.walkPermitOutcome h granted) (fun t => t.walkOutcome h granted) e₀
theorem exec_icHeadroomRise {s : State} (e₀ : s.inReset = false) :
    exec .icHeadroomRise s = .next (State.headroomRose (s.took .icHeadroomRise)) :=
  State.taking_run .icHeadroomRise State.headroomRose e₀
theorem exec_seIdleTelling (idle : Bool) {s : State} (e₀ : s.inReset = false) :
    exec (.seIdleTelling idle) s = .next (if idle then (s.took (.seIdleTelling idle)).resumeWalk else (s.took (.seIdleTelling idle))) :=
  State.taking_run (.seIdleTelling idle) (fun t => if idle then t.resumeWalk else t) e₀
theorem exec_quietMarkChange (mark : QuietMark) (quiet : Bool) {s : State} (e₀ : s.inReset = false) :
    exec (.quietMarkChange mark quiet) s = .next ((s.took (.quietMarkChange mark quiet)).quietChanged mark quiet) :=
  State.taking_run (.quietMarkChange mark quiet) (fun t => t.quietChanged mark quiet) e₀
theorem exec_adoptionSetRemoval (f : FeederNo) {s : State} (e₀ : s.inReset = false) :
    exec (.adoptionSetRemoval f) s = .next ((s.took (.adoptionSetRemoval f)).unadopt f) :=
  State.taking_run (.adoptionSetRemoval f) (fun t => t.unadopt f) e₀
theorem exec_icFeederLost (f : FeederNo) {s : State} (e₀ : s.inReset = false) :
    exec (.icFeederLost f) s = .next ((s.took (.icFeederLost f)).unadopt f) :=
  State.taking_run (.icFeederLost f) (fun t => t.unadopt f) e₀
theorem exec_posting (p : Posting) {s : State} (e₀ : s.inReset = false) :
    exec (.posting p) s = .next ((s.took (.posting p)).takePosting p) :=
  State.taking_run (.posting p) (fun t => t.takePosting p) e₀
theorem exec_raIslandState (left entered : IslandState) {s : State} (e₀ : s.inReset = false) :
    exec (.raIslandState left entered) s = .next ((s.took (.raIslandState left entered)).raIsland left entered) :=
  State.taking_run (.raIslandState left entered) (fun t => t.raIsland left entered) e₀
theorem exec_aeBalanceUpdate {s : State} (e₀ : s.inReset = false) :
    exec .aeBalanceUpdate s = .next (State.serve (s.took .aeBalanceUpdate)) :=
  State.taking_run .aeBalanceUpdate State.serve e₀
theorem exec_stepGuardExpiry {s : State} (e₀ : s.inReset = false) :
    exec .stepGuardExpiry s = .next (State.guardExpired (s.took .stepGuardExpiry)) :=
  State.taking_run .stepGuardExpiry State.guardExpired e₀
theorem exec_waitDeadlineExpiry (slot : Slot) {s : State} (e₀ : s.inReset = false) :
    exec (.waitDeadlineExpiry slot) s = .next ((s.took (.waitDeadlineExpiry slot)).waitExpired slot) :=
  State.taking_run (.waitDeadlineExpiry slot) (fun t => t.waitExpired slot) e₀
theorem exec_reservationExpiry (slot : Slot) {s : State} (e₀ : s.inReset = false) :
    exec (.reservationExpiry slot) s = .next ((s.took (.reservationExpiry slot)).reservationExpired slot) :=
  State.taking_run (.reservationExpiry slot) (fun t => t.reservationExpired slot) e₀
theorem exec_startDemandDelay {s : State} (e₀ : s.inReset = false) :
    exec .startDemandDelay s = .next (State.judgeNeed (s.took .startDemandDelay)) :=
  State.taking_run .startDemandDelay State.judgeNeed e₀
theorem exec_aeReplyDelivery (d : FeederDelivery) {s : State} (e₀ : s.inReset = false) :
    exec (.aeReplyDelivery d) s = .next ((s.took (.aeReplyDelivery d)).aeDelivery d id) :=
  State.taking_run (.aeReplyDelivery d) (fun t => t.aeDelivery d id) e₀
theorem exec_drawRequest (d : FeederDelivery) (claim : DrawClaim) {s : State} (e₀ : s.inReset = false) :
    exec (.drawRequest d claim) s = .next ((s.took (.drawRequest d claim)).aeDelivery d fun u => u.takeDraw d claim) :=
  State.taking_run (.drawRequest d claim) (fun t => t.aeDelivery d fun u => u.takeDraw d claim) e₀
theorem exec_release (d : FeederDelivery) (h : Handle) {s : State} (e₀ : s.inReset = false) :
    exec (.release d h) s = .next ((s.took (.release d h)).aeDelivery d fun u => State.takeRelease (s.took (.release d h)) u d h) :=
  State.taking_run (.release d h) (fun t => t.aeDelivery d fun u => State.takeRelease t u d h) e₀
theorem exec_aeContactChange (f : FeederNo) (now : Contact) {s : State} (e₀ : s.inReset = false) :
    exec (.aeContactChange f now) s = .next ((s.took (.aeContactChange f now)).aeContact f now) :=
  State.taking_run (.aeContactChange f now) (fun t => t.aeContact f now) e₀
theorem exec_aeDarkEntry {s : State} (e₀ : s.inReset = false) :
    exec .aeDarkEntry s = .next (State.aeDark (s.took .aeDarkEntry)) :=
  State.taking_run .aeDarkEntry State.aeDark e₀
theorem exec_walkPermitRequest (f : FeederNo) (kw : Kw) {s : State} (e₀ : s.inReset = false) :
    exec (.walkPermitRequest f kw) s = .next ((s.took (.walkPermitRequest f kw)).walkRequest f kw) :=
  State.taking_run (.walkPermitRequest f kw) (fun t => t.walkRequest f kw) e₀
theorem exec_shedListCandidateNamed (h : Handle) {s : State} (e₀ : s.inReset = false) :
    exec (.shedListCandidateNamed h) s = .next (((s.took (.shedListCandidateNamed h)).named? h).serve) :=
  State.taking_run (.shedListCandidateNamed h) (fun t => (t.named? h).serve) e₀
theorem exec_namingEnd (result : NamingEnd) {s : State} (e₀ : s.inReset = false) :
    exec (.namingEnd result) s = .next (State.namingEnded (s.took (.namingEnd result))) :=
  State.taking_run (.namingEnd result) State.namingEnded e₀
theorem exec_seBalanceUpdate {s : State} (e₀ : s.inReset = false) :
    exec .seBalanceUpdate s = .next (State.seJudges (s.took .seBalanceUpdate)) :=
  State.taking_run .seBalanceUpdate State.seJudges e₀
theorem exec_seReplyDelivery (d : FeederDelivery) {s : State} (e₀ : s.inReset = false) :
    exec (.seReplyDelivery d) s = .next ((s.took (.seReplyDelivery d)).seReply d) :=
  State.taking_run (.seReplyDelivery d) (fun t => t.seReply d) e₀
theorem exec_seContactChange (f : FeederNo) (now : Contact) {s : State} (e₀ : s.inReset = false) :
    exec (.seContactChange f now) s = .next ((s.took (.seContactChange f now)).seContact f now) :=
  State.taking_run (.seContactChange f now) (fun t => t.seContact f now) e₀
theorem exec_revokeDeadlineExpiry (slot : Slot) {s : State} (e₀ : s.inReset = false) :
    exec (.revokeDeadlineExpiry slot) s = .next ((s.took (.revokeDeadlineExpiry slot)).revokeFailed slot) :=
  State.taking_run (.revokeDeadlineExpiry slot) (fun t => t.revokeFailed slot) e₀
theorem exec_minimumOffTime (slot : Slot) {s : State} (e₀ : s.inReset = false) :
    exec (.minimumOffTime slot) s = .next (State.judgeCandidate (s.took (.minimumOffTime slot))) :=
  State.taking_run (.minimumOffTime slot) State.judgeCandidate e₀
theorem exec_seIslandState (entered : IslandState) {s : State} (e₀ : s.inReset = false) :
    exec (.seIslandState entered) s = .next (State.seJudges (s.took (.seIslandState entered))) :=
  State.taking_run (.seIslandState entered) State.seJudges e₀
theorem exec_seDarkEntry {s : State} (e₀ : s.inReset = false) :
    exec .seDarkEntry s = .next (State.seDark (s.took .seDarkEntry)) :=
  State.taking_run .seDarkEntry State.seDark e₀
theorem exec_leadStartRequest (g : GensetNo) {s : State} (e₀ : s.inReset = false) :
    exec (.leadStartRequest g) s = .next ((s.took (.leadStartRequest g)).leadRequest g) :=
  State.taking_run (.leadStartRequest g) (fun t => t.leadRequest g) e₀
theorem exec_adoptionRequest (why : AdoptionWhy) {s : State} (e₀ : s.inReset = false) :
    exec (.adoptionRequest why) s = .next ((s.took (.adoptionRequest why)).adoption why) :=
  State.taking_run (.adoptionRequest why) (fun t => t.adoption why) e₀
theorem exec_icLaneAbort (g : GensetNo) {s : State} (e₀ : s.inReset = false) :
    exec (.icLaneAbort g) s = .next ((s.took (.icLaneAbort g)).leadAbort g) :=
  State.taking_run (.icLaneAbort g) (fun t => t.leadAbort g) e₀
theorem exec_gsBalanceUpdate {s : State} (e₀ : s.inReset = false) :
    exec .gsBalanceUpdate s = .next (State.settleGensets (s.took .gsBalanceUpdate) true true (s.took .gsBalanceUpdate)) :=
  State.taking_run .gsBalanceUpdate (fun t => State.settleGensets t true true t) e₀
theorem exec_gsReplyDelivery (d : GensetDelivery) {s : State} (e₀ : s.inReset = false) :
    exec (.gsReplyDelivery d) s = .next ((s.took (.gsReplyDelivery d)).gsReply d) :=
  State.taking_run (.gsReplyDelivery d) (fun t => t.gsReply d) e₀
theorem exec_gsContactLost (g : GensetNo) (now : Contact) {s : State} (e₀ : s.inReset = false) :
    exec (.gsContactLost g now) s = .next ((s.took (.gsContactLost g now)).gsLost g now) :=
  State.taking_run (.gsContactLost g now) (fun t => t.gsLost g now) e₀
theorem exec_stepLimitExpiry (lane : LaneId) {s : State} (e₀ : s.inReset = false) :
    exec (.stepLimitExpiry lane) s = .next ((s.took (.stepLimitExpiry lane)).laneEvent fun u => u.stepExpired lane) :=
  State.taking_run (.stepLimitExpiry lane) (fun t => t.laneEvent fun u => u.stepExpired lane) e₀
theorem exec_readyWaitExpiry (lane : LaneId) {s : State} (e₀ : s.inReset = false) :
    exec (.readyWaitExpiry lane) s = .next ((s.took (.readyWaitExpiry lane)).laneEvent fun u => u.readyExpired lane) :=
  State.taking_run (.readyWaitExpiry lane) (fun t => t.laneEvent fun u => u.readyExpired lane) e₀
theorem exec_minRunExpiry (g : GensetNo) {s : State} (e₀ : s.inReset = false) :
    exec (.minRunExpiry g) s = .next ((s.took (.minRunExpiry g)).minRunExpired g) :=
  State.taking_run (.minRunExpiry g) (fun t => t.minRunExpired g) e₀
theorem exec_restTimerExpiry (g : GensetNo) {s : State} (e₀ : s.inReset = false) :
    exec (.restTimerExpiry g) s = .next ((s.took (.restTimerExpiry g)).restExpired g) :=
  State.taking_run (.restTimerExpiry g) (fun t => t.restExpired g) e₀
theorem exec_stopDelayExpiry {s : State} (e₀ : s.inReset = false) :
    exec .stopDelayExpiry s = .next (State.stopDelayExpired (s.took .stopDelayExpiry)) :=
  State.taking_run .stopDelayExpiry State.stopDelayExpired e₀
theorem exec_phaseLimitExpiry (g : GensetNo) {s : State} (e₀ : s.inReset = false) :
    exec (.phaseLimitExpiry g) s = .next ((s.took (.phaseLimitExpiry g)).phaseLimitExpired g) :=
  State.taking_run (.phaseLimitExpiry g) (fun t => t.phaseLimitExpired g) e₀
theorem exec_coolDownExpiry (g : GensetNo) {s : State} (e₀ : s.inReset = false) :
    exec (.coolDownExpiry g) s = .next ((s.took (.coolDownExpiry g)).coolDownExpired g) :=
  State.taking_run (.coolDownExpiry g) (fun t => t.coolDownExpired g) e₀
theorem exec_gsIslandState (entered : IslandState) {s : State} (e₀ : s.inReset = false) :
    exec (.gsIslandState entered) s = .next ((s.took (.gsIslandState entered)).gsIsland entered) :=
  State.taking_run (.gsIslandState entered) (fun t => t.gsIsland entered) e₀
theorem exec_cuBalanceUpdate {s : State} (e₀ : s.inReset = false) :
    exec .cuBalanceUpdate s = .next (State.ceilingChanged (s.took .cuBalanceUpdate)) :=
  State.taking_run .cuBalanceUpdate State.ceilingChanged e₀
theorem exec_cuReplyDelivery (d : ArrayDelivery) {s : State} (e₀ : s.inReset = false) :
    exec (.cuReplyDelivery d) s = .next ((s.took (.cuReplyDelivery d)).cuReply d) :=
  State.taking_run (.cuReplyDelivery d) (fun t => t.cuReply d) e₀
theorem exec_cuContactLost (a : ArrayNo) (now : Contact) {s : State} (e₀ : s.inReset = false) :
    exec (.cuContactLost a now) s = .next ((s.took (.cuContactLost a now)).cuLost a now) :=
  State.taking_run (.cuContactLost a now) (fun t => t.cuLost a now) e₀
theorem exec_sharePeriodExpiry {s : State} (e₀ : s.inReset = false) :
    exec .sharePeriodExpiry s = .next (State.shareExpired (s.took .sharePeriodExpiry)) :=
  State.taking_run .sharePeriodExpiry State.shareExpired e₀
theorem exec_raiseClaimAnswer (raised : List ArrayNo) {s : State} (e₀ : s.inReset = false) :
    exec (.raiseClaimAnswer raised) s = .next ((s.took (.raiseClaimAnswer raised)).raiseAnswered raised) :=
  State.taking_run (.raiseClaimAnswer raised) (fun t => t.raiseAnswered raised) e₀
theorem exec_releaseDelayExpiry {s : State} (e₀ : s.inReset = false) :
    exec .releaseDelayExpiry s = .next (State.releaseDelayExpired (s.took .releaseDelayExpiry)) :=
  State.taking_run .releaseDelayExpiry State.releaseDelayExpired e₀
theorem exec_releaseClaimAnswer (whole : Bool) (raised : List ArrayNo) {s : State} (e₀ : s.inReset = false) :
    exec (.releaseClaimAnswer whole raised) s = .next ((s.took (.releaseClaimAnswer whole raised)).releaseAnswered whole raised) :=
  State.taking_run (.releaseClaimAnswer whole raised) (fun t => t.releaseAnswered whole raised) e₀
theorem exec_holdQuantum (a : ArrayNo) {s : State} (e₀ : s.inReset = false) :
    exec (.holdQuantum a) s = .next ((s.took (.holdQuantum a)).quantumPassed a) :=
  State.taking_run (.holdQuantum a) (fun t => t.quantumPassed a) e₀
theorem exec_holdLapse (a : ArrayNo) {s : State} (e₀ : s.inReset = false) :
    exec (.holdLapse a) s = .next ((s.took (.holdLapse a)).holdLapsed a) :=
  State.taking_run (.holdLapse a) (fun t => t.holdLapsed a) e₀
theorem exec_cuRunEntry (left : IslandState) {s : State} (e₀ : s.inReset = false) :
    exec (.cuRunEntry left) s = .next ((s.took (.cuRunEntry left)).cuRun left) :=
  State.taking_run (.cuRunEntry left) (fun t => t.cuRun left) e₀
theorem exec_cuDarkEntry {s : State} (e₀ : s.inReset = false) :
    exec .cuDarkEntry s = .next (State.cuDark (s.took .cuDarkEntry)) :=
  State.taking_run .cuDarkEntry State.cuDark e₀
theorem exec_cuRestoreEntry {s : State} (e₀ : s.inReset = false) :
    exec .cuRestoreEntry s = .next (State.cuRestore (s.took .cuRestoreEntry)) :=
  State.taking_run .cuRestoreEntry State.cuRestore e₀
theorem exec_flcIslandState (entered : IslandState) {s : State} (e₀ : s.inReset = false) :
    exec (.flcIslandState entered) s = .next ((s.took (.flcIslandState entered))) :=
  State.taking_run (.flcIslandState entered) id e₀
theorem exec_orderPlacement (p : Placement) {s : State} (e₀ : s.inReset = false) :
    exec (.orderPlacement p) s = .next ((s.took (.orderPlacement p)).placed p) :=
  State.taking_run (.orderPlacement p) (fun t => t.placed p) e₀
theorem exec_orderWithdrawal (w : Withdrawal) {s : State} (e₀ : s.inReset = false) :
    exec (.orderWithdrawal w) s = .next ((s.took (.orderWithdrawal w)).withdrawn w) :=
  State.taking_run (.orderWithdrawal w) (fun t => t.withdrawn w) e₀
theorem exec_gapExpiry {s : State} (e₀ : s.inReset = false) :
    exec .gapExpiry s = .next (State.gapExpired (s.took .gapExpiry)) :=
  State.taking_run .gapExpiry State.gapExpired e₀
theorem exec_frameSent {s : State} (e₀ : s.inReset = false) :
    exec .frameSent s = .next (State.frameLeft (s.took .frameSent)) :=
  State.taking_run .frameSent State.frameLeft e₀
theorem exec_replyStart {s : State} (e₀ : s.inReset = false) :
    exec .replyStart s = .next (State.replyBegins (s.took .replyStart)) :=
  State.taking_run .replyStart State.replyBegins e₀
theorem exec_replyReceived (chars : List Byte) {s : State} (e₀ : s.inReset = false) :
    exec (.replyReceived chars) s = .next ((s.took (.replyReceived chars)).replyTaken chars) :=
  State.taking_run (.replyReceived chars) (fun t => t.replyTaken chars) e₀
theorem exec_receptionTimeout {s : State} (e₀ : s.inReset = false) :
    exec .receptionTimeout s = .next (State.receptionEnds (s.took .receptionTimeout)) :=
  State.taking_run .receptionTimeout State.receptionEnds e₀
theorem exec_replyWindowExpiry {s : State} (e₀ : s.inReset = false) :
    exec .replyWindowExpiry s = .next (State.windowExpired (s.took .replyWindowExpiry)) :=
  State.taking_run .replyWindowExpiry State.windowExpired e₀
theorem exec_supersessionNotice_ae (target : UnitRec) (order : Order) (cause : GoneCause) {s : State}
    (e₀ : s.inReset = false) : exec (.supersessionNotice .ae target order cause) s =
      .next ((s.took (.supersessionNotice .ae target order cause)).aeGone order) :=
  State.taking_run (.supersessionNotice .ae target order cause) (fun t => t.aeGone order) e₀
theorem exec_supersessionNotice_cu (a : ArrayNo) (order : Order) (cause : GoneCause) {s : State}
    (e₀ : s.inReset = false) : exec (.supersessionNotice .cu (.array a) order cause) s =
      .next ((s.took (.supersessionNotice .cu (.array a) order cause)).cuGone a) :=
  State.taking_run (.supersessionNotice .cu (.array a) order cause) (fun t => t.cuGone a) e₀

end Sys2Proof.Machine
end

