-- ==== Sys2Proof/Laws/Sequencer.lean ====
section
/-! SUPPORT. A genset that is in no lane, not queued and not eligible is left alone by all that the sequencer does for others;
and where no lane is free, the judgements of an event change the Start Queue and the stop delay alone. -/

set_option linter.unusedSimpArgs false

namespace Sys2Proof.Machine

/-- A genset with its record, in no lane and not in the Start Queue. -/
structure Apart (g : GensetNo) (r : Genset) (s : State) : Prop where
  record : s.genset g = r
  lanes  : ∀ l q, s.run l = some q → q.genset ≠ g
  queue  : ∀ e ∈ s.gs.queue, e.genset ≠ g

/-- Demand cannot take it. -/
def Genset.unwanted (r : Genset) : Prop := r.state ≠ .off ∨ r.rest ≠ none

variable {g : GensetNo} {r : Genset} {s : State}

theorem Apart.push (h : Apart g r s) (e : Instr) : Apart g r (s.push e) := ⟨h.record, h.lanes, h.queue⟩
theorem Apart.pushAll (h : Apart g r s) (es : List Instr) : Apart g r (s.pushAll es) := ⟨h.record, h.lanes, h.queue⟩
theorem Apart.took (h : Apart g r s) (e : Instr) : Apart g r (s.took e) := ⟨h.record, h.lanes, h.queue⟩
theorem Apart.notice (h : Apart g r s) (n : Notice) : Apart g r (s.notice n) := h.push _
theorem Apart.gsPlace (h : Apart g r s) (k : GensetNo) (o : Order) (u : Bool) : Apart g r (s.gsPlace k o u) := h.push _
theorem Apart.withdraw (h : Apart g r s) (k : UnitRec) (o : OrderKind) (b : Block) : Apart g r (s.withdraw k o b) := h.push _

theorem Apart.post (f : State → State) (h : Apart g r (f s)) : Apart g r (s.post f) := ⟨h.record, h.lanes, h.queue⟩

theorem Apart.setGenset (h : Apart g r s) {k : GensetNo} (x : Genset) (ne : k ≠ g) : Apart g r (s.setGenset k x) :=
  ⟨by rw [State.genset_setGenset_ne _ _ ne]; exact h.record, h.lanes, h.queue⟩

theorem Apart.setRun (h : Apart g r s) (l : LaneId) {x : Option Run} (ne : ∀ q, x = some q → q.genset ≠ g) :
    Apart g r (s.setRun l x) := by
  refine ⟨by cases l <;> exact h.record, ?_, by cases l <;> exact h.queue⟩
  intro l' q hq
  cases l <;> cases l' <;> first | exact ne q hq | exact h.lanes .a q hq | exact h.lanes .b q hq

theorem Apart.setQueue (h : Apart g r s) (q : List QueueEntry) (ne : ∀ e ∈ q, e.genset ≠ g) :
    Apart g r { s with gs := { s.gs with queue := q } } := ⟨h.record, fun l => by cases l; exacts [h.lanes .a, h.lanes .b], ne⟩

theorem Apart.unqueue (h : Apart g r s) (k : GensetNo) : Apart g r (s.unqueue k) :=
  h.setQueue _ fun e he => h.queue e (List.mem_filter.1 he).1

theorem Apart.dropStop (h : Apart g r s) : Apart g r s.dropStop :=
  ⟨h.record, fun l => by cases l; exacts [h.lanes .a, h.lanes .b], h.queue⟩

/-! ## Lanes -/

theorem Apart.tellLead (h : Apart g r s) (q : Run) (o : LeadOutcome) : Apart g r (s.tellLead q o) := by
  unfold State.tellLead; split
  · exact h.push _
  · exact h

theorem Apart.commit (h : Apart g r s) {k : GensetNo} (ne : k ≠ g) : Apart g r (s.commit k) :=
  Apart.post _ (h.setGenset _ ne)

theorem Apart.failRun (h : Apart g r s) (l : LaneId) (c : FailCause) : Apart g r (s.failRun l c) := by
  simp only [State.failRun]
  split
  · exact h
  · rename_i q hq
    have ne := h.lanes l q hq
    have b : Apart g r ((s.setRun l none).notice .startFailed) := (h.setRun l (by simp)).notice _
    split
    · cases c <;> simp only
      all_goals first
        | exact b
        | exact b.setGenset _ ne
        | exact Apart.post _ (b.setGenset _ ne)
        | exact ((Apart.post _ (b.setGenset _ ne)).notice _).gsPlace _ _ _
    · refine Apart.tellLead ?_ _ _
      cases c <;> simp only
      all_goals first
        | exact b.setGenset _ ne
        | exact (b.setGenset _ ne).gsPlace _ _ _

theorem Apart.endRun (h : Apart g r s) (l : LaneId) (q : Run) (ne : q.genset ≠ g) : Apart g r (s.endRun l q) :=
  (h.setRun l (by simp)).setGenset _ ne

theorem Apart.breakerClosed (h : Apart g r s) (q : Run) (ne : q.genset ≠ g) : Apart g r (s.breakerClosed q) := by
  unfold State.breakerClosed; split
  · exact h
  · exact (h.commit ne).tellLead _ _

theorem Apart.withdrawStep (h : Apart g r s) (q : Run) : Apart g r (s.withdrawStep q) := by
  unfold State.withdrawStep; split
  · exact h
  · split
    · exact h.withdraw _ _ _
    · exact h

theorem Apart.setSome (h : Apart g r s) (l : LaneId) (q : Run) (ne : q.genset ≠ g) : Apart g r (s.setRun l (some q)) :=
  h.setRun l fun _ e => by obtain rfl := Option.some.inj e; exact ne

theorem Apart.completeStep (h : Apart g r s) (l : LaneId) (q : Run) (k : StepKind) (ne : q.genset ≠ g) :
    Apart g r (s.completeStep l q k).1 := by
  have b := h.withdrawStep q
  unfold State.completeStep
  cases k <;> simp only
  all_goals first
    | exact b
    | exact (b.setSome l _ (by exact ne)).breakerClosed _ ne

theorem Apart.failing (h : Apart g r s) (l : LaneId) (c : FailCause) : Apart g r (s.failing l c).1 := h.failRun l c

theorem Apart.orderClose (h : Apart g r s) (l : LaneId) (q : Run) (k : StepKind) (o : Order) (ne : q.genset ≠ g) :
    Apart g r (s.orderClose l q k o).1 := by
  unfold State.orderClose; split
  · exact (h.setSome l q ne).completeStep l q k ne
  · exact (h.setSome l _ (by exact ne)).gsPlace _ _ _

theorem Apart.granted (h : Apart g r s) (l : LaneId) (q : Run) (ne : q.genset ≠ g) : Apart g r (s.granted l q).1 := by
  unfold State.granted
  split
  · exact h
  · simp only
    split
    · split
      · exact (h.setSome l _ (by exact ne)).completeStep l _ _ (by exact ne)
      · exact (h.setSome l _ (by exact ne)).gsPlace _ _ _
    · exact h.orderClose l _ _ _ (by exact ne)
    · exact h

theorem Apart.askToken (h : Apart g r s) (l : LaneId) (q : Run) (ne : q.genset ≠ g) : Apart g r (s.askToken l q).1 := by
  unfold State.askToken; split
  · exact h.setSome l _ (by exact ne)
  · exact h.granted l q ne

theorem Apart.beginStep (h : Apart g r s) (l : LaneId) (q : Run) (ne : q.genset ≠ g) : Apart g r (s.beginStep l q).1 := by
  unfold State.beginStep
  simp only
  split
  · exact h.setSome l _ (by exact ne)
  · have a := fun x : Genset => h.setGenset (k := q.genset) x ne
    split
    all_goals (try split)
    all_goals first
      | exact ((a _).setSome l _ (by exact ne)).completeStep l _ _ (by exact ne)
      | exact ((a _).setSome l _ (by exact ne)).gsPlace _ _ _
      | exact ((a _).setSome l _ (by exact ne)).askToken l _ (by exact ne)
      | exact ((a _).setSome l _ (by exact ne)).failing l _
      | exact (a _).orderClose l _ _ _ (by exact ne)
      | exact ((a _).setSome l _ (by exact ne)).orderClose l _ _ _ (by exact ne)
      | exact ((a _).setSome l _ (by exact ne)).endRun l _ (by exact ne)
      | exact (a _).setSome l _ (by exact ne)

theorem Apart.work (h : Apart g r s) (w : Work) : Apart g r (s.work w).1 := by
  cases w with
  | next l =>
    simp only [State.work]; split
    · rename_i q hq; exact h.beginStep l q (h.lanes l q hq)
    · exact h
  | grant =>
    simp only [State.work]; split
    · rename_i l q hq
      split
      · exact h
      · refine h.granted l q ?_
        simp only [State.waitingLane] at hq
        split at hq
        · rename_i x hx
          obtain ⟨rfl, rfl⟩ := Prod.mk.inj (Option.some.inj hq)
          exact h.lanes .a _ (Option.filter_eq_some_iff.1 hx).1
        · rename_i x hx hb
          obtain ⟨rfl, rfl⟩ := Prod.mk.inj (Option.some.inj hq)
          exact h.lanes .b _ (Option.filter_eq_some_iff.1 hb).1
        · cases hq
    · exact h

theorem Apart.pump (n : Nat) (ws : List Work) (h : Apart g r s) : Apart g r (State.pump n ws s) := by
  induction n generalizing ws s with
  | zero => exact h
  | succ n ih => cases ws with
    | nil => exact h
    | cons w ws => exact ih _ (h.work w)

theorem Apart.finish {x : State × List Work} (h : Apart g r x.1) : Apart g r (State.finish x) := h.pump _ _

theorem Apart.takeLane (h : Apart g r s) (l : LaneId) {k : GensetNo} (o : Origin) (ne : k ≠ g) :
    Apart g r (s.takeLane l k o) :=
  Apart.finish ((h.setGenset _ ne).setSome l _ (by exact ne))

/-! ## Demand, take-up, the stop condition -/

theorem Apart.takeHead (h : Apart g r s) (l : LaneId) : Apart g r (s.takeHead l) := by
  unfold State.takeHead
  split
  · rename_i e q _ _ hq
    have he : e.genset ≠ g := h.queue e (by rw [hq]; exact List.mem_cons_self ..)
    exact (h.setQueue q fun x hx => h.queue x (by rw [hq]; exact List.mem_cons_of_mem _ hx)).takeLane l _ he
  · exact h

theorem Apart.append (h : Apart g r s) (w : Kw) (l : List GensetNo) (ne : g ∉ l) : Apart g r (State.append w l s) := by
  induction l generalizing s with
  | nil => exact h
  | cons k l ih =>
    simp only [State.append]
    split
    · refine ih (h.setQueue _ fun e he => ?_) (fun x => ne (List.mem_cons_of_mem _ x))
      rcases List.mem_append.1 he with x | x
      · exact h.queue e x
      · obtain rfl := List.mem_singleton.1 x
        rintro rfl
        exact ne (List.mem_cons_self ..)
    · exact h

theorem Apart.trim (h : Apart g r s) (w : Kw) (n : Nat) : Apart g r (State.trim w n s) := by
  induction n generalizing s with
  | zero => exact h
  | succ n ih =>
    simp only [State.trim]
    split
    · exact h
    · split
      · exact ih (h.unqueue _)
      · exact h

theorem mem_sortBy {α : Type} (f : α → α → Bool) (a : α) (l : List α) : a ∈ sortBy f l ↔ a ∈ l := by
  induction l with
  | nil => rfl
  | cons b l ih => simp [sortBy, ih]

theorem Apart.judgeDemand (h : Apart g r s) (u : r.unwanted) : Apart g r s.judgeDemand := by
  simp only [State.judgeDemand]
  split
  · split
    · refine h.append _ _ fun x => ?_
      rw [State.eligibles, mem_sortBy, List.mem_filter] at x
      have e := x.2
      simp only [State.eligible, h.record, Bool.and_eq_true, beq_iff_eq] at e
      rcases u with u | u
      · exact u e.1.1.2
      · exact u (by simpa using e.1.2)
    · split
      · exact h.setQueue _ fun e he => h.queue e (List.mem_filter.1 he).1
      · exact h.trim _ _
  · exact h

theorem Apart.serveStarts (n : Nat) (d : Bool) (h : Apart g r s) (u : r.unwanted) :
    Apart g r (State.serveStarts n d s).1 := by
  induction n generalizing d s with
  | zero => exact h
  | succ n ih =>
    have hv : Apart g r (if d then s.judgeDemand else s) := by
      split
      · exact h.judgeDemand u
      · exact h
    simp only [State.serveStarts]
    generalize (if d then s.judgeDemand else s) = v at hv ⊢
    by_cases c : v.gs.queue.length = ((v.takeHead .a).takeHead .b).gs.queue.length
    · simp only [c, if_true]; exact hv
    · simp only [c, if_false]; exact ih _ ((hv.takeHead _).takeHead _)

theorem Apart.judgeStop (h : Apart g r s) : Apart g r s.judgeStop := by
  unfold State.judgeStop
  split
  · exact h.dropStop
  · split
    · exact h
    · exact ⟨h.record, fun l => by cases l; exacts [h.lanes .a, h.lanes .b], h.queue⟩

/-- The judgements that end an event leave a genset alone that is in no lane, not queued, and not eligible for demand. -/
theorem Apart.settleGensets (before : State) (d t : Bool) (h : Apart g r s) (u : r.unwanted) :
    Apart g r (State.settleGensets before d t s) := by
  simp only [State.settleGensets]
  have a := h.serveStarts 16 (d || entered .off before s || laneFreed before s) u
  generalize (State.serveStarts 16 (d || entered .off before s || laneFreed before s) s) = v at a ⊢
  obtain ⟨v, f⟩ := v
  simp only at a ⊢
  have b := a.judgeStop
  repeat' split
  all_goals first
    | exact a
    | exact b
    | exact a.push _
    | exact b.push _

/-- From the words of the statements. -/
theorem Apart.of_outside (h : s.outside g) : Apart g (s.genset g) s := by
  obtain ⟨h1, h2⟩ := h
  refine ⟨rfl, ?_, ?_⟩
  · intro l q hq e
    simp only [State.laneOf] at h1
    cases l
    · have : s.gs.laneA = some q := hq
      simp [this, e] at h1
    · have : s.gs.laneB = some q := hq
      cases ha : s.gs.laneA <;> simp [ha, this, e] at h1
      split at h1 <;> cases h1
  · intro x hx e
    simp only [State.queued] at h2
    have := List.any_eq_false.1 h2 x hx
    simp [e] at this

/-! ## Where no lane is free -/

theorem takeHead_noLaneFree (h : s.noLaneFree) (l : LaneId) : s.takeHead l = s := by
  unfold State.takeHead
  split
  · rename_i h1 h2 _
    rcases h with h | h
    · rw [h] at h1; cases h1
    · cases l
      · have : s.gs.laneA = none := h2
        simp [this] at h
      · have : s.gs.laneB = none := h2
        simp [this] at h
  · rfl

/-- Demand changes the Start Queue alone (R86). -/
theorem State.append_queue (w : Kw) (l : List GensetNo) (s : State) :
    ∃ q, State.append w l s = { s with gs := { s.gs with queue := q } } := by
  induction l generalizing s with
  | nil => exact ⟨s.gs.queue, rfl⟩
  | cons k l ih =>
    simp only [State.append]
    split
    · obtain ⟨q, e⟩ := ih { s with gs := { s.gs with queue := s.gs.queue ++ [{ genset := k, origin := .demand }] } }
      exact ⟨q, e⟩
    · exact ⟨s.gs.queue, rfl⟩

theorem State.trim_queue (w : Kw) (n : Nat) (s : State) :
    ∃ q, State.trim w n s = { s with gs := { s.gs with queue := q } } := by
  induction n generalizing s with
  | zero => exact ⟨s.gs.queue, rfl⟩
  | succ n ih =>
    simp only [State.trim]
    split
    · exact ⟨s.gs.queue, rfl⟩
    · rename_i e _
      split
      · obtain ⟨q, h⟩ := ih (s.unqueue e.genset)
        exact ⟨q, h⟩
      · exact ⟨s.gs.queue, rfl⟩

theorem State.judgeDemand_queue (s : State) : ∃ q, s.judgeDemand = { s with gs := { s.gs with queue := q } } := by
  simp only [State.judgeDemand]
  split
  · split
    · exact State.append_queue _ _ _
    · split
      · exact ⟨_, rfl⟩
      · exact State.trim_queue _ _ _
  · exact ⟨s.gs.queue, rfl⟩

/-- With no lane free, an event's end changes the queue and the stop delay alone, and tells the sequencer-quiet mark alone. -/
theorem State.settleGensets_noLaneFree (h : s.noLaneFree) (before : State) (d t : Bool) :
    ∃ q delay candidate es, State.settleGensets before d t s =
      { s with events := s.events ++ es
               gs := { s.gs with queue := q, stopDelay := delay, stopCandidate := candidate } } := by
  have key : ∀ due, ∃ q, State.serveStarts 16 due s = ({ s with gs := { s.gs with queue := q } }, false) := by
    intro due
    obtain ⟨q, e⟩ : ∃ q, (if due then s.judgeDemand else s) = { s with gs := { s.gs with queue := q } } := by
      split
      · exact s.judgeDemand_queue
      · exact ⟨s.gs.queue, rfl⟩
    refine ⟨q, ?_⟩
    have n : State.noLaneFree { s with gs := { s.gs with queue := q } } := h
    simp only [State.serveStarts, e, takeHead_noLaneFree n, if_true]
  simp only [State.settleGensets]
  obtain ⟨q, e⟩ := key (d || entered .off before s || laneFreed before s)
  rw [e]
  simp only
  have j : ∀ v : State, ∃ a b, v.judgeStop = { v with gs := { v.gs with stopDelay := a, stopCandidate := b } } := by
    intro v
    simp only [State.judgeStop]
    split
    · exact ⟨none, none, rfl⟩
    · split
      · exact ⟨v.gs.stopDelay, v.gs.stopCandidate, rfl⟩
      · exact ⟨_, _, rfl⟩
  obtain ⟨a, b, e'⟩ := j { s with gs := { s.gs with queue := q } }
  rw [e']
  repeat' split
  · exact ⟨q, a, b, [], by simp⟩
  · exact ⟨q, a, b, _, rfl⟩
  · exact ⟨q, s.gs.stopDelay, s.gs.stopCandidate, [], by simp⟩
  · exact ⟨q, s.gs.stopDelay, s.gs.stopCandidate, _, rfl⟩

end Sys2Proof.Machine
end

