-- ==== Sys2Proof/Laws/Served.lean ====
section
/-! SUPPORT. The account of a permit's passage: what it adds to the charged load and takes from headroom; and the permits that a
service of the lists leaves as they were. -/

namespace Sys2Proof.Machine

/-! ## Sums over a table -/

theorem sumOver_append {α : Type} (f : α → Nat) (l m : List α) : sumOver f (l ++ m) = sumOver f l + sumOver f m := by
  induction l with
  | nil => simp [sumOver]
  | cons a l ih => simp only [sumOver, List.cons_append, List.foldr_cons] at ih ⊢; omega

theorem sumOver_list_set {α : Type} (f : α → Nat) (l : List α) (i : Nat) (h : i < l.length) (a : α) :
    sumOver f (l.set i a) + f l[i] = sumOver f l + f a := by
  induction l generalizing i with
  | nil => simp at h
  | cons b l ih =>
    cases i with
    | zero => simp [sumOver]; omega
    | succ i =>
      have := ih i (by simpa using h)
      simp only [sumOver, List.set_cons_succ, List.foldr_cons, List.getElem_cons_succ] at this ⊢
      omega

/-- One entry of a table written: the sum changes by that entry. -/
theorem sumOver_set {α : Type} {n : Nat} (f : α → Nat) (v : Vector α n) (i : Fin n) (a : α) :
    sumOver f (v.set i a).toList + f v[i] = sumOver f v.toList + f a := by
  have := sumOver_list_set f v.toList i (by simp) a
  simpa [Vector.toList_set] using this

/-! ## A permit's passage in the account -/

/-- A permit's charge is its state's, whatever timers and marks the passage clears (R21). -/
@[simp] theorem State.settled_charge (s : State) (old p : Permit) : (s.settled old p).charge = p.charge := by
  unfold State.settled
  split
  · rename_i h; simp [Permit.charge, h]
  · rfl

@[simp] theorem State.enter_onlineCapacity (s : State) (i : Slot) (p : Permit) :
    (s.enter i p).onlineCapacity = s.onlineCapacity := by simp [State.onlineCapacity]
@[simp] theorem State.enter_stepAcceptance (s : State) (i : Slot) (p : Permit) :
    (s.enter i p).stepAcceptance = s.stepAcceptance := by simp [State.stepAcceptance]
@[simp] theorem State.enter_exposure (s : State) (i : Slot) (p : Permit) : (s.enter i p).exposure = s.exposure := by
  simp [State.exposure]
@[simp] theorem State.enter_reserveRequirement (s : State) (i : Slot) (p : Permit) :
    (s.enter i p).reserveRequirement = s.reserveRequirement := by simp [State.reserveRequirement]

/-- The table after a passage. -/
theorem State.enter_permits (s : State) (i : Slot) (p : Permit) :
    (s.enter i p).ae.permits = s.ae.permits.set i (s.settled (s.permit i) p) := by
  simp only [State.enter]
  split <;> simp

/-- A passage changes the charged load by the permit's own charge (R1, R21). -/
theorem State.enter_chargedLoad (s : State) (i : Slot) (p : Permit) :
    ((s.enter i p).chargedLoad + (s.permit i).charge : Nat) = s.chargedLoad + p.charge := by
  have := sumOver_set Permit.charge s.ae.permits i (s.settled (s.permit i) p)
  rw [State.settled_charge] at this
  simpa only [State.chargedLoad, State.enter_permits, State.permit] using this

/-- And headroom by as much the other way (R2). -/
theorem State.enter_headroom (s : State) (i : Slot) (p : Permit) :
    (s.enter i p).headroom = s.headroom + (s.permit i).charge - p.charge := by
  have := s.enter_chargedLoad i p
  unfold Kw at *
  simp only [State.headroom, State.enter_onlineCapacity, State.enter_reserveRequirement]
  omega

/-- A claim of a passage is accepted where headroom covers the rise of the charge, or the charge does not rise (R7). -/
theorem State.claim_enter {s : State} {i : Slot} {p : Permit}
    (h : (p.charge : Int) ≤ s.headroom + (s.permit i).charge ∨ p.charge ≤ (s.permit i).charge) :
    s.claim (fun t => t.enter i p) = some (s.notify (s.enter i p)) := by
  have c := s.enter_chargedLoad i p
  have e := s.enter_headroom i p
  unfold Kw at *
  simp only [State.claim]
  rw [if_pos]
  rcases h with h | h
  · left; omega
  · right
    have h : @LE.le Nat _ p.charge (s.permit i).charge := h
    show @LE.le Nat _ _ _
    omega

/-- And refused where it does not. -/
theorem State.claim_enter_none {s : State} {i : Slot} {p : Permit}
    (h : s.headroom + (s.permit i).charge < p.charge) (h' : (s.permit i).charge < p.charge) :
    s.claim (fun t => t.enter i p) = none := by
  have c := s.enter_chargedLoad i p
  have e := s.enter_headroom i p
  unfold Kw at *
  simp only [State.claim]
  rw [if_neg]
  have h' : @LT.lt Nat _ (s.permit i).charge p.charge := h'
  rintro (x | x)
  · omega
  · have x : @LE.le Nat _ (s.enter i p).chargedLoad s.chargedLoad := x
    omega

/-! ## Permits that a service leaves alone -/

@[simp] theorem State.notify_permit (s t : State) (i : Slot) : (s.notify t).permit i = t.permit i := rfl
@[simp] theorem State.post_permit (s : State) (f : State → State) (i : Slot) : (s.post f).permit i = (f s).permit i := rfl

@[simp] theorem State.setNeed_permit (s : State) (source : NeedSource) (kw : Option Kw) (i : Slot) :
    (s.setNeed source kw).permit i = s.permit i := by unfold State.setNeed; cases source <;> split <;> rfl

/-- A need is written at the Need Register alone. -/
@[simp] theorem State.setNeed_ae (s : State) (source : NeedSource) (kw : Option Kw) : (s.setNeed source kw).ae = s.ae := by
  unfold State.setNeed; cases source <;> split <;> rfl
@[simp] theorem State.judgeNeed_permit (s : State) (i : Slot) : s.judgeNeed.permit i = s.permit i := by
  simp [State.judgeNeed]
@[simp] theorem State.aePlace_permit (s : State) (f : FeederNo) (o : Order) (i : Slot) :
    (s.aePlace f o).permit i = s.permit i := by unfold State.aePlace; split <;> simp
@[simp] theorem State.confirmGrant_permit (s : State) (j i : Slot) : (s.confirmGrant j).permit i = s.permit i := by
  unfold State.confirmGrant; split <;> simp
@[simp] theorem State.aeEmpty_permit (s : State) (f : FeederNo) (i : Slot) : (s.aeEmpty f).permit i = s.permit i := by
  unfold State.aeEmpty; split <;> simp
@[simp] theorem State.serveRelease_permit (s : State) (i : Slot) : s.serveRelease.permit i = s.permit i := by
  simp only [State.serveRelease]
  repeat' split
  all_goals simp [State.permit, State.place, State.push]

/-- The first step of a service changes the candidate's permit alone, and that from SHED. -/
theorem State.serveCandidate_permit (s : State) (i : Slot) (h : (s.permit i).state ≠ .shed ∨ s.ae.candidate = none) :
    s.serveCandidate.permit i = s.permit i := by
  simp only [State.serveCandidate]
  split
  · rfl
  · rename_i k hk
    have h : (s.permit i).state ≠ .shed := by rcases h with h | h <;> simp_all
    split
    · simp [State.permit]
    · rename_i j hj
      split
      · rename_i hs
        have ne : j ≠ i := by rintro rfl; exact h hs.1
        split
        · rename_i t ht
          obtain ⟨rfl, -⟩ := State.claim_some ht
          refine (State.confirmGrant_permit _ _ _).trans ?_
          rw [State.notify_permit, State.permit_enter_ne _ _ ne]; rfl
        · simp [State.permit]
      · simp [State.permit]

/-- The second step changes permits in QUEUED alone. -/
theorem State.serveQueue_permit (n : Nat) (s : State) (i : Slot) (x : s.listsExact) (h : (s.permit i).state ≠ .queued) :
    (State.serveQueue n s).permit i = s.permit i := by
  induction n generalizing s with
  | zero => rfl
  | succ n ih =>
    simp only [State.serveQueue]
    split
    · rfl
    · rename_i j l hq
      have ne : j ≠ i := by
        rintro rfl
        exact h ((x.1.2 j).1 (by rw [hq]; exact List.mem_cons_self ..))
      split
      · rename_i t ht
        obtain ⟨rfl, -⟩ := State.claim_some ht
        have e : ((s.notify (s.enter j { s.permit j with
          state := if (s.permit j).ofFeeder then .staging else .granted })).confirmGrant j).permit i = s.permit i := by
            simp only [State.confirmGrant_permit, State.notify_permit]
            exact State.permit_enter_ne _ _ ne
        rw [ih _ (by simp [x]) (by rw [e]; exact h), e]
      · rfl

/-- A service leaves every permit alone that is neither QUEUED nor the SHED candidate. -/
theorem State.serve_permit (s : State) (i : Slot) (x : s.listsExact) (h : (s.permit i).state ≠ .queued)
    (h' : (s.permit i).state ≠ .shed ∨ s.ae.candidate = none) : s.serve.permit i = s.permit i := by
  have c := s.serveCandidate_permit i h'
  have cx : s.serveCandidate.listsExact := State.serveCandidate_listsExact s x
  simp only [State.serve]
  split <;> split <;> simp [State.serveQueue_permit _ _ _ cx, c, h]

/-- And so does all that a permit's event ends with. -/
theorem State.settleAdmission_permit (before after : State) (i : Slot) (x : after.listsExact)
    (h : (after.permit i).state ≠ .queued) (h' : (after.permit i).state ≠ .shed ∨ after.ae.candidate = none) :
    (State.settleAdmission before after).permit i = after.permit i := by
  have k : (after.judgeNeed).permit i = after.permit i := by simp
  have kc : after.judgeNeed.ae.candidate = after.ae.candidate := by simp [State.judgeNeed]
  simp only [State.settleAdmission]
  split <;> split
  all_goals first
    | rfl
    | exact State.serve_permit _ _ x h h'
    | exact (State.serve_permit _ _ (State.judgeNeed_listsExact _ x) (by rwa [k]) (by rwa [k, kc])).trans k
    | exact k

end Sys2Proof.Machine
end

