-- ==== Sys2Proof/Tests/Slice0.lean ====
section
/-! SUPPORT. The model's own tests, on small states: what the well-formedness check refuses, one step of each command, and for
every statement states and operands that meet its hypotheses, at the bounds of their ranges. -/

open Sys2Proof Sys2Proof.Machine

namespace Sys2Proof.Tests

set_option Elab.async false

/-! ## Small states -/

/-- A genset profile with the primary slot 0 and the dark slot 1. -/
def profileOf (rated minimum step merit : Nat) : Profile :=
  { rated := rated, minimum := minimum, step := step, merit := merit, primary := 0, dark := some 1, maxAttempts := 2
    minRun := 60, coolDown := 30 }

/-- A bound directory entry in contact. -/
def boundTo (r : UnitRec) : UnitEntry := { bound := some r, contact := .inContact }

/-- A small plant: feeders 0 and 1, genset 0 ONLINE with 1000 kW, genset 1 OFF with 500 kW, array 0 of 500 kW, held bus LIVE.
Its headroom is 1000 less the requirement 50 % of 500, that is 750. -/
def plant (st : IslandState) : State :=
  let g0 : Genset :=
    { addr := some 2, profile := some (profileOf 1000 300 400 0), state := .online, minRun := some 0 }
  let g1 : Genset := { addr := some 3, profile := some (profileOf 500 150 200 1), state := .off }
  let f0 : Feeder := { addr := some 0, cls := 1, pickup := 100 }
  let f1 : Feeder := { addr := some 1, cls := 3, pickup := 200 }
  let a0 : ArrayRecord := { addr := some 4, definition := some { nameplate := 500, fallback := 100 } }
  let units : Vector UnitEntry 32 :=
    (((((Vector.replicate 32 {}).set 0 (boundTo (.feeder 0))).set 1 (boundTo (.feeder 1))).set 2
      (boundTo (.genset 0))).set 3 (boundTo (.genset 1))).set 4 (boundTo (.array 0))
  { State.reset with
    ic := { state := st, heldLive := true }
    gs := { gensets := ((Vector.replicate 6 {}).set 0 g0).set 1 g1 }
    se := { feeders := ((Vector.replicate 24 {}).set 0 f0).set 1 f1 }
    cu := { arrays := (Vector.replicate 8 {}).set 0 a0 }
    flc := { directory := units, pollList := [0, 1, 2, 3, 4] } }

/-- A state with one more permit, entered as the model enters it. -/
def holding (s : State) (i : Slot) (p : Permit) : State := { s.enter i p with events := [] }

/-- A permit of feeder 0. -/
def feederPermit (st : PermitState) (released : Kw) : Permit :=
  { state := st, holder := some (.feeder 0), cls := 1, requested := 200, released := released, lastDraw := 150
    waitDeadline := some 20000, revokeReason := some .ladder, revokeDeadline := some 5000 }

/-- A reservation. -/
def reservation (st : PermitState) : Permit :=
  { state := st, holder := some .station, cls := 2, requested := 100, waitDeadline := some 1000, expiryGiven := some 60 }

/-- The state after a command. -/
def after (c : Instr) (s : State) : State :=
  match exec c s with
  | .next t => t
  | .fault _ => s
  | .refused _ => s

/-- The lists are exact, as a test. -/
def exactly (s : State) (l : List Slot) (st : PermitState) : Bool :=
  decide l.Nodup && (indices 32).all fun i => decide (i ∈ l) == decide ((s.permit i).state = st)

theorem listsExact_of {s : State} (h : (exactly s s.ae.waitQueue .queued && exactly s s.ae.releaseList .staging
    && exactly s s.se.shedList .shed) = true) : s.listsExact := by
  have k : ∀ (l : List Slot) (st : PermitState), exactly s l st = true → s.holdsExactly l st := by
    intro l st h
    simp only [exactly, Bool.and_eq_true, decide_eq_true_eq, List.all_eq_true, beq_iff_eq] at h
    refine ⟨h.1, fun i => ?_⟩
    have := h.2 i (by simp [indices])
    simpa [decide_eq_decide] using this
  simp only [Bool.and_eq_true] at h
  exact ⟨k _ _ h.1.1, k _ _ h.1.2, k _ _ h.2⟩

/-- Each order is of a kind that its owner places, as a test. -/
def ownedOrders (s : State) : Bool :=
  ((indices 32).all fun u => (s.entry u).slot.all fun o => decide (o.owner = ownerOf o.order))
    && (s.events ++ s.pending).all fun e =>
      match e with
      | .orderPlacement p => decide (p.owner = ownerOf p.order)
      | _ => true

theorem ordersOwned_of {s : State} (h : ownedOrders s = true) : s.ordersOwned := by
  simp only [ownedOrders, Bool.and_eq_true, List.all_eq_true] at h
  refine ⟨fun u o k => ?_, fun p k => ?_⟩
  · have := h.1 u (by simp [indices])
    rw [k] at this
    simpa using this
  · simpa using h.2 _ (List.mem_append.mpr k)

/-! ## Well-formedness: each check refuses an ill-formed term -/

theorem test_wellFormed_lookUp : (Instr.lookUp 256 0).wellFormed = false ∧ (Instr.lookUp 1 256).wellFormed = false := by decide
theorem test_wellFormed_setSetting : (Instr.setSetting 256 0).wellFormed = false
    ∧ (Instr.setSetting 0 4294967296).wellFormed = false := by decide
theorem test_wellFormed_getSetting : (Instr.getSetting 256).wellFormed = false := by decide
theorem test_wellFormed_reserve : (Instr.reserve 65536 0 true none).wellFormed = false
    ∧ (Instr.reserve 1 256 true none).wellFormed = false
    ∧ (Instr.reserve 1 0 true (some 65536)).wellFormed = false := by decide
theorem test_wellFormed_handles : (Instr.adjust ⟨256, 1⟩ 1).wellFormed = false ∧ (Instr.adjust ⟨0, 1⟩ 65536).wellFormed = false
    ∧ (Instr.retire ⟨0, 256⟩).wellFormed = false ∧ (Instr.shedNow ⟨256, 0⟩).wellFormed = false := by decide
theorem test_wellFormed_feeders : (Instr.setFeeder 256 0 0 true).wellFormed = false
    ∧ (Instr.setFeeder 0 256 0 true).wellFormed = false ∧ (Instr.setFeeder 0 0 65536 true).wellFormed = false
    ∧ (Instr.resetRotation 256).wellFormed = false := by decide
/-- A profile that a request can carry, with one number too large for its field. -/
def fields (rated minimum step merit primary : Nat) (dark : Option Nat) (maxAttempts minRun coolDown : Nat) : ProfileFields :=
  { rated := rated, minimum := minimum, step := step, merit := merit, primary := primary, dark := dark
    maxAttempts := maxAttempts, minRun := minRun, coolDown := coolDown }
theorem test_wellFormed_setGenset : (Instr.setGenset 256 (fields 1 0 0 0 0 none 1 0 0)).wellFormed = false
    ∧ (Instr.setGenset 0 (fields 65536 0 0 0 0 none 1 0 0)).wellFormed = false
    ∧ (Instr.setGenset 0 (fields 1 65536 0 0 0 none 1 0 0)).wellFormed = false
    ∧ (Instr.setGenset 0 (fields 1 0 65536 0 0 none 1 0 0)).wellFormed = false
    ∧ (Instr.setGenset 0 (fields 1 0 0 256 0 none 1 0 0)).wellFormed = false
    ∧ (Instr.setGenset 0 (fields 1 0 0 0 256 none 1 0 0)).wellFormed = false
    ∧ (Instr.setGenset 0 (fields 1 0 0 0 0 (some 255) 1 0 0)).wellFormed = false
    ∧ (Instr.setGenset 0 (fields 1 0 0 0 0 none 256 0 0)).wellFormed = false
    ∧ (Instr.setGenset 0 (fields 1 0 0 0 0 none 1 65536 0)).wellFormed = false
    ∧ (Instr.setGenset 0 (fields 1 0 0 0 0 none 1 0 65536)).wellFormed = false
    ∧ (Instr.setGenset 0 (fields 1 0 0 0 0 (some 254) 1 0 0)).wellFormed = true := by decide
theorem test_wellFormed_writeStep : (Instr.writeStep 256 0 0 0 1).wellFormed = false
    ∧ (Instr.writeStep 0 256 0 0 1).wellFormed = false ∧ (Instr.writeStep 0 0 256 0 1).wellFormed = false
    ∧ (Instr.writeStep 0 0 0 256 1).wellFormed = false ∧ (Instr.writeStep 0 0 0 0 65536).wellFormed = false := by decide
theorem test_wellFormed_gensets : (Instr.start 256).wellFormed = false ∧ (Instr.stop 256 true).wellFormed = false
    ∧ (Instr.abortStart 256).wellFormed = false ∧ (Instr.clearFailed 256).wellFormed = false
    ∧ (Instr.lockOut 256).wellFormed = false ∧ (Instr.unlock 256).wellFormed = false := by decide
theorem test_wellFormed_arrays : (Instr.setArray 256 0 0).wellFormed = false ∧ (Instr.setArray 0 65536 0).wellFormed = false
    ∧ (Instr.setArray 0 0 65536).wellFormed = false ∧ (Instr.setShare 256 0 0 0 true).wellFormed = false
    ∧ (Instr.setShare 0 256 0 0 true).wellFormed = false ∧ (Instr.setShare 0 0 256 0 true).wellFormed = false
    ∧ (Instr.setShare 0 0 0 65536 true).wellFormed = false := by decide
theorem test_wellFormed_lists : (Instr.setRestoreEntry 256 0 0 0).wellFormed = false
    ∧ (Instr.setRestoreEntry 0 256 0 0).wellFormed = false ∧ (Instr.setRestoreEntry 0 0 65536 0).wellFormed = false
    ∧ (Instr.setRestoreEntry 0 0 0 65536).wellFormed = false ∧ (Instr.setLeadOrder [256]).wellFormed = false
    ∧ (Instr.setLeadOrder (List.replicate 60 0)).wellFormed = false ∧ (Instr.setPollList [256]).wellFormed = false
    ∧ (Instr.setPollList (List.replicate 60 1)).wellFormed = false ∧ (Instr.setUnit 256 0 0).wellFormed = false
    ∧ (Instr.setUnit 0 256 0).wellFormed = false ∧ (Instr.setUnit 0 0 256).wellFormed = false := by decide

/-- No row of the table gives bits, so no word spells a command (log 13). -/
theorem test_no_word_spells_a_command : decodeTableWord 8 0 = none ∧ decodeTableWord 0 0 = none := ⟨rfl, rfl⟩

/-! ## The plant -/

theorem test_plant_figures : (plant .run).headroom = 750 ∧ (plant .run).reserveRequirement = 250
    ∧ (plant .run).stepAcceptance = 400 ∧ (plant .run).ceiling = 0 := by decide +kernel
/-- The worked figures of R2 and R8: 35 % of 1210 over 300 is 724; 33 of 50 are accepted. -/
def account (base factor exposure capacity charged : Nat) : State :=
  let s := ((plant .run).putSetting .baseReserve base).putSetting .cloudFactor factor
  let s := s.setGenset 0 { s.genset 0 with profile := some (profileOf capacity 0 0 0) }
  let s := s.setArray 0 { s.array 0 with definition := some { nameplate := exposure, fallback := 0 } }
  holding s 0 { state := .granted, holder := some .station, requested := charged }
theorem test_requirement_of_R2 : (account 300 35 1210 1800 0).reserveRequirement = 724 := by decide +kernel
theorem test_clip_of_R8 : (account 200 30 300 1800 1500).clipRaise 50 = 33 := by decide +kernel
theorem test_plant_sound : (plant .run).sound := by
  refine ⟨fun st => ?_, ⟨⟨by decide, fun u => ?_⟩, by decide, by decide, by decide⟩, listsExact_of (by decide +kernel)⟩
  · cases st <;> decide +kernel
  · revert u; decide +kernel

/-! ## States and operands that meet the hypotheses of the statements, at the bounds of their clauses -/

/-- A reset state held in reset, one with a telling, one with a timer that has run out. -/
def held : State := { State.reset with inReset := true }
def told : State := { State.reset with events := [.null] }
def overdue : State := { State.reset with cu := { State.reset.cu with sharePeriod := 0 } }
theorem meets_EmptyQueueSteps : (held.pending = [] ∧ held.inReset = true)
    ∧ (told.pending = [] ∧ told.inReset = false ∧ told.events = [.null])
    ∧ (overdue.pending = [] ∧ overdue.inReset = false ∧ overdue.events = [] ∧ overdue.due = [.sharePeriodExpiry])
    ∧ (State.reset.pending = [] ∧ State.reset.inReset = false ∧ State.reset.events = [] ∧ State.reset.due = []) := by
  decide +kernel
theorem meets_EveryCommandAnswers : held.inReset = true ∧ actsInReset .null = false := by decide
/-- A step that answers with a next state, as a test. -/
def goesOn (s : State) : Bool :=
  match step s with
  | .next _ => true
  | _ => false
theorem next_of {s : State} (h : goesOn s = true) : ∃ t, step s = .next t := by
  unfold goesOn at h
  generalize step s = o at h
  cases o with
  | next t => exact ⟨t, rfl⟩
  | fault _ => cases h
  | refused _ => cases h
theorem meets_StepKeepsListsExact : (plant .run).sound ∧ ∃ t, step (plant .run) = .next t :=
  ⟨test_plant_sound, next_of (by decide +kernel)⟩
theorem meets_StationRequestsReadBack : (Instr.lookUp 255 255).wellFormed = true
    ∧ (Instr.setSetting 255 4294967295).wellFormed = true ∧ (Instr.reserve 65535 255 true (some 65535)).wellFormed = true
    ∧ (Instr.adjust ⟨255, 255⟩ 65535).wellFormed = true ∧ (Instr.setFeeder 255 255 65535 true).wellFormed = true
    ∧ (Instr.setGenset 255 (fields 65535 65535 65535 255 255 (some 254) 255 65535 65535)).wellFormed = true
    ∧ (Instr.writeStep 255 255 255 255 65535).wellFormed = true ∧ (Instr.stop 255 true).wellFormed = true
    ∧ (Instr.setArray 255 65535 65535).wellFormed = true ∧ (Instr.setShare 255 255 255 65535 true).wellFormed = true
    ∧ (Instr.setRestoreEntry 255 255 65535 65535).wellFormed = true
    ∧ (Instr.setLeadOrder (List.replicate 59 255)).wellFormed = true
    ∧ (Instr.setPollList (List.replicate 59 255)).wellFormed = true ∧ (Instr.setUnit 255 255 255).wellFormed = true := by decide

/-- A state with a transaction under way, and one in which a request is in execution. -/
def shifting (busy : Bool) : State :=
  { State.reset with
    pins := { csLow := true }
    sp := { State.reset.sp with transaction := some { busy := busy, frame := replyFrame {} } } }
def executing : State := { State.reset with sp := { State.reset.sp with executing := some 0x01 } }
theorem meets_TransactionsHandOver : (shifting false).inReset = false ∧ (Instr.lookUp 1 31).wellFormed = true
    ∧ requestPayload (.lookUp 1 31) = some [1, 31]
    ∧ (shifting false).sp.transaction = some { busy := false, frame := replyFrame {} } := by decide +kernel
/-- Sixty-four bytes that begin so. -/
def bytes (l : List Byte) : List Byte := l ++ List.replicate (64 - l.length) 0
/-- A request without a length error fails a later test, in the order of R182. -/
def passesCheck (mosi : List Byte) : Prop :=
  64 ≤ mosi.length ∧ (mosi.getD 1 0).toNat ≤ 60
    ∧ crc8 (mosi.take (2 + (mosi.getD 1 0).toNat)) = mosi.getD (2 + (mosi.getD 1 0).toNat) 0
theorem meets_TransactionsRefuse :
    (List.replicate 63 (0 : Byte)).length < 64
    ∧ (64 ≤ (bytes [0, 61]).length ∧ 60 < ((bytes [0, 61]).getD 1 0).toNat)
    ∧ (((bytes [0, 60]).getD 1 0).toNat ≤ 60)
    ∧ (64 ≤ (bytes [0, 0, 1]).length ∧ ((bytes [0, 0, 1]).getD 1 0).toNat ≤ 60
      ∧ crc8 ((bytes [0, 0, 1]).take 2) ≠ (bytes [0, 0, 1]).getD 2 0)
    ∧ (64 ≤ (requestFrame 0xFF []).length ∧ crc8 ((requestFrame 0xFF []).take 2) = (requestFrame 0xFF []).getD 2 0
      ∧ readRequest ((requestFrame 0xFF []).getD 0 0) [] = none)
    ∧ (64 ≤ (requestFrame 0x00 [1]).length ∧ crc8 ((requestFrame 0x00 [1]).take 3) = (requestFrame 0x00 [1]).getD 3 0
      ∧ readRequest ((requestFrame 0x00 [1]).getD 0 0) (((requestFrame 0x00 [1]).drop 2).take 1) = some none) := by
  decide +kernel
theorem meets_TransactionsBegin : (shifting false).pins.csLow = true ∧ State.reset.pins.csLow = false
    ∧ State.reset.sp.executing = none ∧ executing.pins.csLow = false ∧ executing.sp.executing = some 0x01 := by
  decide +kernel
/-- MISO driven and at high impedance; its first byte, its last, and one past the frame. -/
theorem meets_Miso : (shifting false).misoDriven = true ∧ State.reset.pins.csLow = false
    ∧ ({ shifting false with inReset := true } : State).misoDriven = false
    ∧ (shifting false).sp.transaction = some { busy := false, frame := replyFrame {} }
    ∧ (shifting false).misoByte 0 = some 0 ∧ (shifting false).misoByte 63 = some 0xFF
    ∧ (shifting false).misoByte 64 = some 0xFF ∧ State.reset.misoByte 0 = none := by decide +kernel
theorem meets_Resets : State.reset.inReset = false ∧ held.inReset = true ∧ held.sp.executing = none := by decide
theorem meets_ReadAccountAndLookUp : recordExists 1 31 = true ∧ recordExists 1 32 = false ∧ recordExists 2 23 = true
    ∧ recordExists 2 24 = false ∧ recordExists 3 5 = true ∧ recordExists 3 6 = false ∧ recordExists 4 1 = true
    ∧ recordExists 4 2 = false ∧ recordExists 5 127 = true ∧ recordExists 5 128 = false ∧ recordExists 6 7 = true
    ∧ recordExists 6 8 = false ∧ recordExists 7 15 = true ∧ recordExists 7 16 = false ∧ recordExists 8 0 = false
    ∧ recordExists 8 1 = true ∧ recordExists 8 32 = true ∧ recordExists 8 33 = false ∧ recordExists 9 0 = true
    ∧ recordExists 9 1 = false ∧ recordExists 10 23 = true ∧ recordExists 10 24 = false ∧ recordExists 11 5 = true
    ∧ recordExists 11 6 = false ∧ recordExists 12 3 = true ∧ recordExists 12 4 = false ∧ recordExists 0 0 = false
    ∧ recordExists 13 0 = false := by decide
theorem meets_Settings : Setting.ofNumber 29 = some .sharePeriod ∧ Setting.sharePeriod.inRange 1 = true
    ∧ Setting.sharePeriod.inRange 60 = true ∧ Setting.sharePeriod.inRange 0 = false
    ∧ Setting.sharePeriod.inRange 61 = false ∧ Setting.ofNumber 0 = some .missedLimit
    ∧ Setting.missedLimit.inRange 1 = true ∧ Setting.missedLimit.inRange 7 = true ∧ (plant .run).ic.state ≠ .setup
    ∧ Setting.ofNumber 3 = some .baudRate ∧ Setting.baudRate.inRange 57600 = true ∧ (plant .setup).ic.state = .setup
    ∧ Setting.ofNumber 30 = none := by decide +kernel
/-- The pins in reset: CS at either level, and BUSLIVE. -/
theorem meets_PinsInReset : held.inReset = true ∧ ({ held with pins := { csLow := true } } : State).inReset = true := by decide

/-! ### The account -/

/-- The plant with a base reserve that leaves this little headroom below 750. -/
def less (s : State) (kw : Nat) : State := s.putSetting .baseReserve kw
theorem meets_ExposureRaise : (account 200 30 300 1800 1500).setting .cloudFactor ≠ 0
    ∧ ((30 * (300 + 33) : Nat) : Int) ≤ 100 * (1800 - 1500 - 200) ∧ ¬ ((30 * (300 + 34) : Nat) : Int) ≤ 100 * (1800 - 1500 - 200)
    ∧ (33 : Nat) ≤ 50 ∧ (account 200 0 300 1800 1500).setting .cloudFactor = 0
    ∧ 0 ≤ (account 300 0 300 1800 1500).headroom ∧ (account 301 0 300 1800 1500).headroom < 0 := by decide +kernel
theorem meets_ClaimedPassage : (((reservation .granted).charge : Int) ≤ (less (plant .run) 650).headroom)
    ∧ ¬ (((reservation .granted).charge : Int) ≤ (less (plant .run) 651).headroom) := by decide +kernel
/-- Slot 0 held by feeder 0, in a state, with so much released. -/
def withFeeder (st : PermitState) (released : Kw) : State := holding (plant .run) 0 (feederPermit st released)
/-- Slot 0 held by a reservation. -/
def withReservation (st : PermitState) : State := holding (plant .run) 0 (reservation st)
theorem exact_feeder : (withFeeder .granted 200).listsExact ∧ (withFeeder .staging 0).listsExact
    ∧ (withFeeder .staging 100).listsExact ∧ (withFeeder .queued 0).listsExact ∧ (withFeeder .shed 0).listsExact
    ∧ (withFeeder .revoking 200).listsExact ∧ (withFeeder .unverified 200).listsExact := by
  refine ⟨?_, ?_, ?_, ?_, ?_, ?_, ?_⟩ <;> exact listsExact_of (by decide +kernel)
theorem exact_reservation : (withReservation .granted).listsExact ∧ (withReservation .queued).listsExact
    ∧ (less (withReservation .queued) 650).listsExact := by
  refine ⟨?_, ?_, ?_⟩ <;> exact listsExact_of (by decide +kernel)
/-- The plant with stand-down in force. -/
def standing (s : State) : State := { s with ic := { s.ic with standDown := true } }
theorem meets_Postings : (withFeeder .granted 200).permitOf 0 = some 0
    ∧ ((withFeeder .granted 200).permit 0).state = .granted ∧ (1 : Nat) < ((withFeeder .granted 200).permit 0).requested
    ∧ ((withFeeder .granted 200).permit 0).requested = 200
    ∧ ((withReservation .queued).permit 0).state = .queued
    ∧ (((less (withReservation .queued) 650).permit 0).requested : Int) = (less (withReservation .queued) 650).headroom
    ∧ ((withFeeder .shed 0).permit 0).state = .shed ∧ ((withFeeder .staging 0).permit 0).state = .staging
    ∧ ((200 : Nat) : Int) ≤ (withFeeder .shed 0).headroom
    ∧ Setting.baseReserve.inRange 16000 = true ∧ Setting.baseReserve.inRange 16001 = false
    ∧ Setting.cloudFactor.inRange 100 = true ∧ (less (plant .run) 750).headroom = 0
    ∧ (less (plant .run) 751).headroom < 0 := by decide +kernel
/-- More postings: a rise that just fits and one that does not, a genset out of the lanes to be ONLINE and one to leave it. -/
theorem meets_Postings_more : ((1 ≤ 1 ∧ 1 ≤ 16000) ∧ (1 ≤ 16000 ∧ 16000 ≤ 16000) ∧ (16000 < 16001))
    ∧ ((withReservation .granted).permit 0).requested < 750
    ∧ ((({ (withReservation .granted).permit 0 with requested := 750 } : Permit).charge : Int)
      = (withReservation .granted).headroom + ((withReservation .granted).permit 0).charge)
    ∧ ((withReservation .granted).headroom + ((withReservation .granted).permit 0).charge
      < ({ (withReservation .granted).permit 0 with requested := 751 } : Permit).charge)
    ∧ ((withFeeder .staging 100).permit 0).state = .staging ∧ ((withFeeder .staging 100).permit 0).ofFeeder = true
    ∧ ((plant .run).genset 1).profile = some (profileOf 500 150 200 1) ∧ ((plant .run).genset 1).state = .off
    ∧ (plant .run).laneOf 1 = none ∧ (standing (plant .run)).starts = false ∧ (standing (plant .run)).laneOf 1 = none
    ∧ ((plant .run).genset 0).state = .online ∧ (standing (plant .run)).laneOf 0 = none
    ∧ (standing (plant .run)).queued 0 = false ∧ ((plant .run).array 0).isHeld = false := by decide +kernel
/-- Permits to be freed, and to be cut, in states whose lists are exact. -/
theorem meets_Postings_freed : (withFeeder .shed 0).listsExact ∧ ((withFeeder .shed 0).permit 0).state ≠ .free
    ∧ (withFeeder .granted 200).listsExact ∧ 1 ≤ 1 ∧ 199 < ((withFeeder .granted 200).permit 0).requested :=
  ⟨exact_feeder.2.2.2.2.1, by decide +kernel, exact_feeder.1, by decide, by decide +kernel⟩

/-! ### Admission and shedding -/

/-- A state with so many permits like `p` in the first slots, the feeder permits each of its own feeder. -/
def crowd (n : Nat) (p : Permit) (own : Bool) : State :=
  ((indices 24).take n).foldl (fun s f =>
    holding s (f.castLE (by decide)) { p with holder := if own then some (.feeder f) else p.holder }) (plant .run)
def small (st : PermitState) : Permit := { reservation st with requested := 1 }
theorem exact_crowd : (crowd 7 (small .granted) false).listsExact ∧ (crowd 8 (small .granted) false).listsExact
    ∧ (crowd 15 (small .queued) true).listsExact ∧ (crowd 16 (small .queued) true).listsExact
    ∧ (less (plant .run) 0).listsExact := by
  refine ⟨?_, ?_, ?_, ?_, ?_⟩ <;> exact listsExact_of (by decide +kernel)
theorem meets_Reserve : (∀ e, (some 65535 : Option Nat) = some e → 1 ≤ e ∧ e ≤ 65535)
    ∧ ¬ (∀ e, (some 0 : Option Nat) = some e → 1 ≤ e ∧ e ≤ 65535)
    ∧ ¬ (∀ e, (some 65536 : Option Nat) = some e → 1 ≤ e ∧ e ≤ 65535)
    ∧ (plant .restore).ic.state = .restore ∧ (plant .setup).ic.state = .setup
    ∧ ((standing (plant .run)).ic.state = .run ∧ (standing (plant .run)).ic.standDown = true)
    ∧ (crowd 8 (small .granted) false).reservations = 8 ∧ (crowd 7 (small .granted) false).reservations = 7
    ∧ (crowd 7 (small .granted) false).freeSlot = some 7
    ∧ (crowd 7 (small .granted) false).ae.waitQueue = [] ∧ (crowd 7 (small .granted) false).headroom = 743
    ∧ ((crowd 15 (small .queued) true).reservations = 0 ∧ (crowd 15 (small .queued) true).freeSlot = some 15
      ∧ (crowd 15 (small .queued) true).ae.waitQueue.length = 15
      ∧ (∃ j ∈ (crowd 15 (small .queued) true).ae.waitQueue, ((crowd 15 (small .queued) true).permit j).cls ≤ 2)
      ∧ ¬ ∃ j ∈ (crowd 15 (small .queued) true).ae.waitQueue, ((crowd 15 (small .queued) true).permit j).cls ≤ 1)
    ∧ ((crowd 16 (small .queued) true).freeSlot = some 16 ∧ (crowd 16 (small .queued) true).ae.waitQueue.length = 16
      ∧ ∃ j ∈ (crowd 16 (small .queued) true).ae.waitQueue, ((crowd 16 (small .queued) true).permit j).cls ≤ 2) := by
  refine ⟨?_, ?_, ?_, by decide +kernel⟩
  · rintro e ⟨⟩; decide
  · intro h; exact absurd (h 0 rfl) (by decide)
  · intro h; exact absurd (h 65536 rfl) (by decide)
theorem meets_Adjust : (plant .run).live ⟨0, 1⟩ = none ∧ (withReservation .granted).live ⟨0, 1⟩ = some 0
    ∧ (withReservation .granted).live ⟨0, 2⟩ = none ∧ (withReservation .granted).live ⟨32, 1⟩ = none
    ∧ ((withFeeder .unverified 200).permit 0).state = .unverified ∧ ((withFeeder .revoking 200).permit 0).state = .revoking
    ∧ ((withFeeder .shed 0).permit 0).state = .shed ∧ ((withReservation .queued).permit 0).state = .queued
    ∧ ((withReservation .granted).permit 0).state = .granted ∧ ((withReservation .granted).permit 0).requested = 100
    ∧ (withReservation .granted).headroom = 650 ∧ ((withReservation .granted).permit 0).charge = 100
    ∧ ({ (withReservation .granted).permit 0 with requested := 750 } : Permit).charge = 750
    ∧ ({ (withReservation .granted).permit 0 with requested := 751 } : Permit).charge = 751
    ∧ ((withFeeder .staging 100).permit 0).state = .staging ∧ ((withFeeder .staging 100).permit 0).released = 100
    ∧ (withFeeder .staging 100).live ⟨0, 1⟩ = some 0
    ∧ ((holding (plant .restore) 0 (reservation .granted)).ic.state = .restore
      ∧ (holding (plant .restore) 0 (reservation .granted)).live ⟨0, 1⟩ = some 0)
    ∧ ((standing (withReservation .granted)).ic.standDown = true
      ∧ (standing (withReservation .granted)).live ⟨0, 1⟩ = some 0) := by decide +kernel
/-- A release in flight to the permit, and one to another permit, the step guard running and idle. -/
theorem meets_Adjust_flight :
    let s := withFeeder .staging 0
    let elsewhere := { s with ae := { s.ae with inFlight := some { handle := ⟨1, 1⟩, feeder := 1, kw := 10 } } }
    let idle := { s with ae := { s.ae with inFlight := some { handle := ⟨0, 1⟩, feeder := 0, kw := 200 } } }
    (idle.flightTo 0 = true ∧ idle.ae.stepGuard = none ∧ idle.live ⟨0, 1⟩ = some 0 ∧ (idle.permit 0).state = .staging
        ∧ (idle.permit 0).holder = some (.feeder 0) ∧ idle.seHolds 0 = false)
      ∧ (elsewhere.flightTo 0 = false ∧ elsewhere.ae.inFlight ≠ none ∧ elsewhere.live ⟨0, 1⟩ = some 0) := by decide +kernel
theorem meets_Retire : (withReservation .granted).live ⟨0, 1⟩ = some 0
    ∧ ((withReservation .granted).permit 0).ofFeeder = false
    ∧ (withFeeder .staging 0).live ⟨0, 1⟩ = some 0 ∧ ((withFeeder .staging 0).permit 0).holder = some (.feeder 0)
    ∧ ((withFeeder .granted 200).permit 0).holder = some (.feeder 0) ∧ (withFeeder .granted 200).live ⟨0, 1⟩ = some 0
    ∧ (withFeeder .queued 0).live ⟨0, 1⟩ = some 0 ∧ (withFeeder .shed 0).live ⟨0, 1⟩ = some 0
    ∧ (withFeeder .unverified 200).live ⟨0, 1⟩ = some 0
    ∧ (withFeeder .revoking 200).live ⟨0, 1⟩ = some 0
    ∧ ((withFeeder .revoking 200).permit 0).revokeReason = some .ladder := by decide +kernel
/-- A release in flight to slot 0, with the step guard running. -/
def flying (s : State) : State :=
  { s with ae := { s.ae with inFlight := some { handle := ⟨0, 1⟩, feeder := 0, kw := 200 }, stepGuard := some 2000 } }
theorem exact_flying : (flying (withFeeder .staging 0)).listsExact := listsExact_of (by decide +kernel)
theorem meets_ShedNow : (plant .dark).active = false ∧ (plant .run).active = true ∧ (plant .run).live ⟨0, 1⟩ = none
    ∧ (withReservation .granted).active = true ∧ ((withReservation .granted).permit 0).ofFeeder = false
    ∧ ((withFeeder .queued 0).permit 0).state ≠ .granted ∧ ((withFeeder .queued 0).permit 0).state ≠ .staging
    ∧ (withFeeder .granted 200).active = true ∧ ((withFeeder .staging 100).permit 0).released ≠ 0
    ∧ (flying (withFeeder .staging 0)).flightTo 0 = true ∧ (flying (withFeeder .staging 0)).live ⟨0, 1⟩ = some 0
    ∧ (flying (withFeeder .staging 0)).ae.stepGuard ≠ none
    ∧ (withFeeder .staging 0).flightTo 0 = false ∧ ((withFeeder .staging 0).permit 0).released = 0 := by decide +kernel
theorem meets_Deadlines : ((withFeeder .queued 0).permit 0).state = .queued
    ∧ ((withFeeder .queued 0).permit 0).holder = some (.feeder 0) ∧ (withFeeder .queued 0).seHolds 0 = false
    ∧ ((withFeeder .queued 0).permit 0).waitDeadline ≠ none ∧ ((withFeeder .granted 200).permit 0).waitDeadline = none
    ∧ ((withReservation .granted).permit 0).expiryLeft ≠ none ∧ ((withFeeder .granted 200).permit 0).expiryLeft = none
    ∧ ((withFeeder .revoking 200).permit 0).holder = some (.feeder 0)
    ∧ ((withFeeder .revoking 200).permit 0).state = .revoking
    ∧ ((withFeeder .granted 200).permit 0).state ≠ .revoking := by decide +kernel
theorem meets_Service :
    let s := withFeeder .staging 0
    let g := { s with ae := { s.ae with stepGuard := some 0 } }
    s.ae.stepGuard = none ∧ g.ae.stepGuard ≠ none ∧ s.ae.candidate = none ∧ s.ae.waitQueue = [] ∧ s.ae.inFlight = none
      ∧ 0 ≤ s.headroom ∧ 0 < s.stepAcceptance ∧ (s.took .aeBalanceUpdate).releaseTarget = some 0
      ∧ (g.took .stepGuardExpiry).releaseTarget = some 0 ∧ (s.permit 0).holder = some (.feeder 0) := by decide +kernel
/-- A Release List whose head the service passes over, its unit SILENT or its slot the SE's, and the states in which no release
is made. -/
def twoStaging : State :=
  let p := { feederPermit .staging 0 with holder := some (.feeder 1) }
  holding (withFeeder .staging 0) 1 { p with cls := 3 }
def silenced (s : State) : State := s.setEntry 0 { s.entry 0 with contact := .silent }
def opening (s : State) : State :=
  s.setEntry 0 { s.entry 0 with
    slot := some { order := .open_ none, owner := .se, urgent := true, number := 1, attempts := 0 } }
theorem meets_Service_target : twoStaging.ae.releaseList = [0, 1] ∧ twoStaging.releaseTarget = some 0
    ∧ (silenced twoStaging).releaseTarget = some 1 ∧ (opening twoStaging).releaseTarget = some 1
    ∧ (silenced twoStaging).contactOf (.feeder 0) = .silent ∧ (opening twoStaging).seHolds 0 = true
    ∧ (silenced (withFeeder .staging 0)).releaseTarget = none
    ∧ ((silenced (withFeeder .staging 0)).took .aeBalanceUpdate).releaseTarget = none := by decide +kernel
theorem meets_Service_none : (flying (withFeeder .staging 0)).ae.stepGuard ≠ none
    ∧ (flying (withFeeder .staging 0)).ae.inFlight ≠ none ∧ (flying (withFeeder .staging 0)).ae.waitQueue = []
    ∧ (flying (withFeeder .staging 0)).ae.candidate = none ∧ (less (withFeeder .staging 0) 551).headroom = -1
    ∧ (less (withFeeder .staging 0) 550).headroom = 0 ∧ (less (withFeeder .staging 0) 551).ae.waitQueue = []
    ∧ ((plant .run).setGenset 0 { (plant .run).genset 0 with state := .off }).stepAcceptance = 0 := by decide +kernel
/-- The head of the Wait Queue fits to the last kW, and does not. -/
theorem meets_Service_head : (withReservation .queued).ae.candidate = none ∧ (withReservation .queued).ic.state = .run
    ∧ (withReservation .queued).ic.standDown = false ∧ (withReservation .queued).ae.waitQueue = 0 :: []
    ∧ (((less (withReservation .queued) 650).permit 0).requested : Int) ≤ (less (withReservation .queued) 650).headroom
    ∧ (less (withReservation .queued) 651).headroom < ((less (withReservation .queued) 651).permit 0).requested
    ∧ (less (withReservation .queued) 651).ae.waitQueue = 0 :: [] ∧ (withFeeder .queued 0).ae.waitQueue = 0 :: []
    ∧ ((withFeeder .queued 0).permit 0).ofFeeder = true := by decide +kernel
/-- A SHED permit that has been so for the minimum off time, and its naming. -/
def shedLong : State := { withFeeder .shed 0 with clock := 30000 }
def naming : State :=
  { shedLong with
    se := { shedLong.se with naming := some ⟨0, 1⟩ }
    ae := { shedLong.ae with candidate := some ⟨0, 1⟩ } }
theorem exact_shedLong : shedLong.listsExact ∧ naming.listsExact :=
  ⟨listsExact_of (by decide +kernel), listsExact_of (by decide +kernel)⟩
theorem meets_Candidate : shedLong.se.naming = none ∧ naming.ae.candidate = some ⟨0, 1⟩ ∧ shedLong.live ⟨0, 1⟩ = some 0
    ∧ naming.live ⟨0, 1⟩ = some 0 ∧ (shedLong.permit 0).state = .shed ∧ shedLong.active = true
    ∧ shedLong.ic.standDown = false ∧ ((shedLong.permit 0).requested : Int) ≤ shedLong.headroom
    ∧ shedLong.se.state = .idle ∧ shedLong.restoreCandidate = some 0
    ∧ ((shedLong.permit 0).requested + shedLong.setting .restoreMargin : Int) ≤ shedLong.headroom
    ∧ (less shedLong 551).headroom < ((shedLong.permit 0).requested + shedLong.setting .restoreMargin : Int)
    ∧ (less shedLong 551).restoreCandidate = some 0 ∧ (withFeeder .shed 0).restoreCandidate = none
    ∧ (standing shedLong).ic.standDown = true ∧ (plant .dark).active = false := by decide +kernel
/-- The first in the Shed List is no candidate while its feeder is locked out, nor a millisecond early. -/
theorem meets_Candidate_ready : shedLong.se.shedList = [0] ∧ (shedLong.permit 0).holder = some (.feeder 0)
    ∧ shedLong.setting .minimumOffTime * 1000 = 30000 ∧ shedLong.clock - (shedLong.permit 0).shedAt = 30000
    ∧ ({ shedLong with clock := 29999 } : State).restoreCandidate = none
    ∧ (shedLong.setFeeder 0 { shedLong.feeder 0 with lockout := true }).restoreCandidate = none := by decide +kernel
/-- A written setting at its owning block. -/
theorem meets_Settings_effects : Setting.ofNumber 4 = some .baseReserve ∧ Setting.baseReserve.inRange 0 = true
    ∧ Setting.ofNumber 8 = some .startDemandDelay ∧ Setting.startDemandDelay.inRange 600 = true
    ∧ Setting.ofNumber 16 = some .restoreMargin ∧ Setting.ofNumber 17 = some .minimumOffTime
    ∧ Setting.minimumOffTime.inRange 0 = true ∧ Setting.restoreMargin.inRange 16000 = true := by decide +kernel
/-- R68, R189: a candidate that would be named at a judging is not named by a write of its settings. -/
theorem test_restore_settings_await_a_judging :
    shedLong.judgeCandidate.se.naming = some ⟨0, 1⟩ ∧ (shedLong.settingTaken .minimumOffTime 0).se.naming = none
      ∧ (shedLong.settingTaken .restoreMargin 0).se.naming = none
      ∧ (shedLong.settingTaken .restoreMargin 0).events = shedLong.events := by decide +kernel
/-- A delivery of feeder 0's report. -/
def reported (closed : Bool) (draw : Kw) : FeederDelivery :=
  { feeder := 0, was := .inContact, report := { closed := closed, isLocal := false, draw := draw }, answer := none }
def asking (kw : Nat) : DrawClaim := { handle := none, kw := kw, mayWait := true, waitLimit := 600 }
theorem meets_FeederReplies : (reported true 16000).report.draw ≤ 16000 ∧ (reported true 0).answer = none
    ∧ (withFeeder .granted 200).permitOf (reported false 0).feeder = some 0
    ∧ (withFeeder .staging 0).permitOf (reported true 0).feeder = some 0
    ∧ (withFeeder .revoking 200).permitOf (reported true 0).feeder = some 0
    ∧ (withFeeder .granted 200).named 0 ⟨0, 1⟩ = some 0 ∧ (withFeeder .staging 0).named 0 ⟨0, 1⟩ = some 0
    ∧ (asking 750).handle = none ∧ (plant .run).permitOf 0 = none ∧ (asking 750).waitLimit ≤ 600
    ∧ (plant .run).freeSlot = some 0 ∧ (plant .run).ae.waitQueue = [] ∧ (((asking 750).kw : Nat) : Int) ≤ (plant .run).headroom
    ∧ (crowd 1 (small .queued) false).freeSlot = some 1
    ∧ (∀ j ∈ (crowd 1 (small .queued) false).ae.waitQueue,
        ((crowd 1 (small .queued) false).feeder 0).cls < ((crowd 1 (small .queued) false).permit j).cls) := by
  decide +kernel
/-- The island record changed. -/
def isle (s : State) (f : Island → Island) : State := { s with ic := f s.ic }
/-- A Restore List of two feeders. -/
def walking : State :=
  isle (plant .restore) fun i => { i with
    restoreList := [{ feeder := 0, pickup := 0, settle := 0 }, { feeder := 1, pickup := 750, settle := 600 }]
    walkPhase := some .next }
/-- The figures of a new request at the ends of their ranges, its island states, and a queue one short of full and full; the SE
holding the slot, and not. -/
theorem meets_FeederReplies_new : (1 ≤ 1 ∧ 1 ≤ 16000 ∧ 600 ≤ 600) ∧ ¬ (1 ≤ 0) ∧ ¬ (16001 ≤ 16000) ∧ ¬ (601 ≤ 600)
    ∧ (plant .setup).ic.state = .setup ∧ (plant .dark).ic.state = .dark ∧ (plant .restart).ic.state = .restart
    ∧ (plant .restore).ic.state = .restore ∧ (plant .setup).permitOf 0 = none ∧ (plant .restore).permitOf 0 = none
    ∧ (plant .setup).adopts 0 = false ∧ (plant .restore).adopts 0 = false ∧ (plant .run).adopts 0 = true
    ∧ (standing (plant .run)).ic.standDown = true ∧ (standing (plant .run)).permitOf 0 = none
    ∧ ¬ ((((asking 751).kw : Nat) : Int) ≤ (plant .run).headroom) ∧ (asking 751).mayWait = true
    ∧ ((crowd 15 (small .queued) false).ae.waitQueue.length = 15 ∧ (crowd 15 (small .queued) false).freeSlot = some 15)
    ∧ ((crowd 16 (small .queued) false).ae.waitQueue.length = 16 ∧ (crowd 16 (small .queued) false).freeSlot = some 16
      ∧ (crowd 16 (small .queued) false).permitOf 0 = none)
    ∧ (plant .run).seHolds 0 = false ∧ (opening (plant .run)).seHolds 0 = true ∧ (opening (plant .run)).freeSlot = some 0 := by
  decide +kernel
theorem exact_new : (opening (plant .run)).listsExact ∧ (standing (plant .run)).listsExact ∧ (plant .setup).listsExact
    ∧ (plant .restore).listsExact ∧ (crowd 16 (small .queued) false).listsExact := by
  refine ⟨?_, ?_, ?_, ?_, ?_⟩ <;> exact listsExact_of (by decide +kernel)
/-- A handle of another holder, and a stale one, beside a permit and with none. -/
theorem meets_FeederReplies_stale : (withReservation .granted).named 0 ⟨0, 1⟩ = none
    ∧ (withReservation .granted).live ⟨0, 1⟩ = some 0 ∧ (withFeeder .granted 200).named 0 ⟨0, 2⟩ = none
    ∧ (withFeeder .granted 200).live ⟨0, 2⟩ = none ∧ (withFeeder .granted 200).permitOf 0 ≠ none := by decide +kernel
/-- A CHANGE in each permit state, at, below and above the requested 200 kW, and at the last rise that fits. -/
theorem meets_FeederReplies_change :
    (∀ st : PermitState, st ≠ .free → (withFeeder st 200).permitOf 0 = some 0 ∧ ((withFeeder st 200).permit 0).state = st
      ∧ ((withFeeder st 200).permit 0).requested = 200 ∧ ((withFeeder st 200).permit 0).gen = 1)
    ∧ (plant .run).adopts 0 = true ∧ (withFeeder .staging 100).headroom = 550
    ∧ ((750 : Nat) : Int) ≤ (withFeeder .staging 100).headroom + 200
    ∧ ¬ (((751 : Nat) : Int) ≤ (withFeeder .staging 100).headroom + 200)
    ∧ (withFeeder .granted 200).headroom = 550 ∧ ((withFeeder .granted 200).permit 0).lastDraw ≤ 200
    ∧ (reported true 200).report.draw ≤ 200 ∧ (reported true 200).was ≠ .silent
    ∧ (holding walking 0 (feederPermit .staging 0)).ic.state = .restore
    ∧ (holding walking 0 (feederPermit .staging 0)).permitOf 0 = some 0
    ∧ (standing (withFeeder .staging 0)).ic.standDown = true := by
  refine ⟨?_, ?_⟩
  · intro st
    cases st <;> decide +kernel
  · decide +kernel
/-- An AE order in feeder 0's slot. -/
def granted (s : State) : State := s.setEntry 0 { s.entry 0 with
  slot := some { order := .grant ⟨0, 1⟩ 0 false, owner := .ae, urgent := false, number := 1, attempts := 0 } }
/-- A RELEASE of a permit in each state, with the AE's order in the slot and with none. -/
theorem meets_FeederReplies_release : (granted (withFeeder .staging 0)).ordersOwned
    ∧ (granted (withFeeder .revoking 200)).ordersOwned
    ∧ (granted (withFeeder .revoking 200)).slotView (.feeder 0) = some (.grant ⟨0, 1⟩ 0 false, .ae)
    ∧ (granted (withFeeder .staging 0)).slotView (.feeder 0) = some (.grant ⟨0, 1⟩ 0 false, .ae)
      ∧ (withFeeder .staging 0).slotView (.feeder 0) = none ∧ (reported false 0).report.closed = false
      ∧ (reported true 0).report.closed = true ∧ (withFeeder .unverified 200).permitOf 0 = some 0 :=
  ⟨ordersOwned_of (by decide +kernel), ordersOwned_of (by decide +kernel), by decide +kernel⟩
/-- Feeder 0's permit UNVERIFIED with a revocation unconfirmed, or REVOKING for another reason. -/
def unconfirmed (r : RevokeReason) : State :=
  let s := withFeeder .unverified 200
  s.setFeeder 0 { s.feeder 0 with unconfirmed := some r }
def retiring : State := holding (plant .run) 0 { feederPermit .revoking 200 with revokeReason := some .retire }
/-- The plant in RESTORE, its walk at the entry of feeder 1 behind that of feeder 0, and the plant with feeder 0 in the Adoption
Set. -/
def restoring (k : Nat) : State :=
  { plant .restore with ic := { (plant .restore).ic with
      walkPointer := k, restoreList := [{ feeder := 0, pickup := 0, settle := 0 }, { feeder := 1, pickup := 0, settle := 0 }] } }
def adopting : State := { plant .run with ic := { (plant .run).ic with adoptionSet := [0] } }
theorem exact_more : (unconfirmed .ladder).listsExact ∧ (unconfirmed .retire).listsExact ∧ retiring.listsExact
    ∧ (restoring 0).listsExact ∧ adopting.listsExact ∧ (plant .dark).listsExact ∧ (plant .run).listsExact := by
  refine ⟨?_, ?_, ?_, ?_, ?_, ?_, ?_⟩ <;> exact listsExact_of (by decide +kernel)
theorem meets_FeederReports : (reported true 16000).answer = none
    ∧ (plant .run).permitOf 0 = none ∧ (plant .run).ic.state = .run ∧ (plant .run).freeSlot = some 0
    ∧ ((plant .run).took (.aeReplyDelivery (reported true 0))).inAdoptionSet 0 = false
    ∧ (adopting.took (.aeReplyDelivery (reported true 0))).inAdoptionSet 0 = true ∧ adopting.permitOf 0 = none
    ∧ (plant .dark).permitOf 0 = none ∧ (plant .dark).ic.state = .dark
    ∧ ((restoring 0).ic.state = .restore
      ∧ (∃ e ∈ (restoring 0).ic.restoreList.take ((restoring 0).ic.walkPointer + 1), e.feeder = 0)
      ∧ ¬ (∃ e ∈ (restoring 0).ic.restoreList.take ((restoring 0).ic.walkPointer + 1), e.feeder = 1)
      ∧ (restoring 0).permitOf 0 = none ∧ (restoring 0).permitOf 1 = none)
    ∧ ((withFeeder .revoking 200).permit 0).revokeReason = some .ladder
    ∧ (retiring.permit 0).state = .revoking ∧ (retiring.permit 0).revokeReason = some .retire ∧ retiring.permitOf 0 = some 0
    ∧ ((unconfirmed .ladder).permit 0).state = .unverified ∧ (unconfirmed .ladder).permitOf 0 = some 0
    ∧ ((unconfirmed .ladder).feeder 0).unconfirmed = some .ladder
    ∧ ((unconfirmed .retire).feeder 0).unconfirmed = some .retire ∧ (unconfirmed .retire).permitOf 0 = some 0
    ∧ (withFeeder .unverified 200).permitOf 0 = some 0 ∧ ((withFeeder .unverified 200).feeder 0).unconfirmed = none
    ∧ ((withFeeder .unverified 200).took (.aeReplyDelivery (reported true 0))).seHolds 0 = false
    ∧ (withFeeder .queued 0).permitOf 0 = some 0 ∧ (withFeeder .shed 0).permitOf 0 = some 0
    ∧ (∀ f, (withFeeder .shed 0).permitOf f = some 0 → f = 0)
    ∧ ((withFeeder .granted 200).permit 0).released = 200 ∧ (withFeeder .granted 200).setting .overdrawTolerance = 10
    ∧ 200 * (100 + 10) < 221 * 100 ∧ ¬ 200 * (100 + 10) < 220 * 100 ∧ ((withFeeder .granted 200).permit 0).lastDraw = 150
    ∧ ((withFeeder .granted 200).permit 0).overdraw = false := by decide +kernel
/-- Feeder 0's answer to a GRANT, behind its report. -/
def granting (was : Contact) (h : Handle) (kw : Kw) (yes closed : Bool) : FeederDelivery :=
  { feeder := 0, was := was, report := { closed := closed, isLocal := false, draw := 150 }
    answer := some { sent := { order := .grant h kw true, owner := .ae, urgent := false, number := 1, attempts := 0 }, accepted := yes } }
/-- Feeder 0's answer to a confirming GRANT, with its breaker CLOSED. -/
def confirming (kw : Kw) (yes : Bool) : FeederDelivery :=
  let sent : SlotOrder := { order := .grant ⟨0, 1⟩ kw false, owner := .ae, urgent := false, number := 1, attempts := 0 }
  { reported true 150 with answer := some { sent := sent, accepted := yes } }
/-- A release in flight whose permit has gone, and a Release List whose feeder was SILENT. -/
def stale : State :=
  { plant .run with
    ae := { (plant .run).ae with inFlight := some { handle := ⟨0, 2⟩, feeder := 0, kw := 100 }, stepGuard := some 1 } }
theorem exact_stale : stale.listsExact := listsExact_of (by decide +kernel)
theorem meets_FeederAnswers : (granting .inContact ⟨0, 1⟩ 200 true true).report.draw ≤ 16000
    ∧ ((confirming 300 true).report.draw ≤ 16000 ∧ (confirming 300 true).was ≠ .silent
      ∧ (confirming 300 true).answer.map (·.sent.order) = some (.grant ⟨0, 1⟩ 300 false))
    ∧ (granting .inContact ⟨0, 1⟩ 200 true true).was ≠ .silent ∧ (withFeeder .staging 100).live ⟨0, 1⟩ = some 0
    ∧ (withFeeder .staging 100).permitOf 0 = some 0 ∧ ((withFeeder .staging 100).permit 0).holder = some (.feeder 0)
    ∧ ((withFeeder .staging 100).permit 0).state = .staging ∧ ((withFeeder .granted 200).permit 0).state = .granted
    ∧ (withFeeder .granted 200).live ⟨0, 1⟩ = some 0 ∧ ((withFeeder .granted 200).permit 0).holder = some (.feeder 0)
    ∧ (withFeeder .revoking 200).live ⟨0, 1⟩ = some 0 ∧ ((withFeeder .revoking 200).permit 0).state = .revoking
    ∧ (flying (withFeeder .staging 0)).ae.inFlight.any (fun x => x.handle == ⟨0, 1⟩ && x.kw == 200) = true
    ∧ (flying (withFeeder .staging 0)).ae.inFlight.any (fun x => x.handle == ⟨0, 1⟩ && x.kw == 199) = false
    ∧ (flying (withFeeder .staging 0)).permitOf 0 = some 0
    ∧ (stale.live ⟨0, 2⟩ = none ∧ stale.permitOf 0 = none ∧ stale.ae.stepGuard ≠ none
      ∧ stale.ae.inFlight = some { handle := ⟨0, 2⟩, feeder := 0, kw := 100 })
    ∧ (granting .inContact ⟨0, 2⟩ 100 true false).report.closed = false
    ∧ (let s := withFeeder .staging 0
      let c := Instr.aeReplyDelivery { granting .silent ⟨0, 1⟩ 200 true false with answer := none }
      s.permitOf 0 = some 0 ∧ 0 ∈ s.ae.releaseList ∧ s.ae.stepGuard = none ∧ s.ae.candidate = none ∧ s.ae.waitQueue = []
        ∧ s.ae.inFlight = none ∧ 0 ≤ s.headroom ∧ 0 < s.stepAcceptance ∧ (s.took c).releaseTarget = some 0
        ∧ (s.permit 0).holder = some (.feeder 0)) := by decide +kernel
theorem meets_ContactLoss : (withFeeder .granted 200).permitOf 0 = some 0 ∧ (withFeeder .staging 100).permitOf 0 = some 0
    ∧ 0 < ((withFeeder .staging 100).permit 0).released ∧ (withFeeder .staging 0).permitOf 0 = some 0
    ∧ ((withFeeder .staging 0).permit 0).released = 0 ∧ (withFeeder .queued 0).permitOf 0 = some 0
    ∧ (withFeeder .revoking 200).permitOf 0 = some 0 ∧ (withFeeder .shed 0).permitOf 0 = some 0
    ∧ (withFeeder .unverified 200).permitOf 0 = some 0
    ∧ (flying (withFeeder .staging 0)).ae.inFlight = some { handle := ⟨0, 1⟩, feeder := 0, kw := 200 }
    ∧ (flying (withFeeder .staging 0)).ae.stepGuard ≠ none
    ∧ ((plant .run).took (.supersessionNotice .cu (.array 0) .release .emptied)).slotView (.array 0) = none := by
  decide +kernel
/-- A release in flight ends with the step guard idle, and the same permit is the next release's target. -/
theorem meets_ContactLoss_idle :
    let s := { withFeeder .staging 0 with
      ae := { (withFeeder .staging 0).ae with inFlight := some { handle := ⟨0, 1⟩, feeder := 0, kw := 200 } } }
    let c := Instr.supersessionNotice .ae (.feeder 0) (.grant ⟨0, 1⟩ 200 true) .emptied
    let u := { s.took c with ae := { s.ae with inFlight := none } }
    s.ae.stepGuard = none ∧ s.ae.candidate = none ∧ s.ae.waitQueue = [] ∧ 0 ≤ s.headroom ∧ 0 < s.stepAcceptance
      ∧ u.releaseTarget = some 0 ∧ (s.permit 0).holder = some (.feeder 0)
      ∧ s.ae.inFlight.any (fun x => x.handle == ⟨0, 1⟩ && x.kw == 199) = false := by decide +kernel
theorem meets_DarkEntry : (plant .dark).listsExact ∧ (plant .dark).contactOf (.feeder 1) ≠ .lost :=
  ⟨listsExact_of (by decide +kernel), by decide +kernel⟩
/-- Dark entry with an order of the AE in a slot, and with a SHED permit of its feeder. -/
theorem meets_DarkEntry_slot : (granted shedLong).listsExact
    ∧ ((granted shedLong).took .aeDarkEntry).slotView (.feeder 0) = some (.grant ⟨0, 1⟩ 0 false, .ae)
    ∧ (granted shedLong).permitsSingle ∧ (granted shedLong).permitOf 0 = some 0
    ∧ ((granted shedLong).permit 0).state = .shed := by
  refine ⟨listsExact_of (by decide +kernel), by decide +kernel,
    ⟨by decide +kernel, by decide +kernel, by decide +kernel, by decide +kernel, ?_⟩, by decide +kernel⟩
  have h : (granted shedLong).needs.ae = none ∧ (granted shedLong).needs.ic = none := by decide +kernel
  rintro kw (k | k)
  · rw [h.1] at k; cases k
  · rw [h.2] at k; cases k
theorem meets_SetFeeder : (∃ f : FeederNo, 23 = f.val) ∧ ((plant .run).feeder 23).lockout = false := ⟨⟨23, rfl⟩, by decide⟩
/-- A lockout cleared: on the only candidate, with headroom for it and a kW short, and where nothing is judged. -/
theorem meets_SetFeeder_cleared :
    let locked := shedLong.setFeeder 0 { shedLong.feeder 0 with lockout := true }
    let written (s : State) : State := ((s.took (.setFeeder 0 1 100 false)).setFeeder 0 { s.feeder 0 with lockout := false }).replied 0x24 []
    let wanted : Int := (locked.permit 0).requested + locked.setting .restoreMargin
    (locked.feeder 0).lockout = true ∧ (written locked).restoreCandidate = some 0 ∧ wanted ≤ locked.headroom
      ∧ (locked.active = true ∧ locked.ic.standDown = false ∧ locked.se.state = .idle ∧ locked.se.naming = none)
      ∧ (less locked 551).headroom < wanted ∧ (written (less locked 551)).restoreCandidate = some 0
      ∧ (written { locked with clock := 29999 }).restoreCandidate = none ∧ (standing locked).ic.standDown = true := by
  decide +kernel
/-- The plant below 0 with feeder 0 on the ladder, with nothing on it, and with enough in flight already. -/
def short : State := less (withFeeder .granted 200) 600
def bare : State := less (withReservation .granted) 700
theorem meets_ShedState : (plant .dark).active = false ∧ 0 ≤ (less (plant .run) 750).headroom
    ∧ short.active = true ∧ short.headroom < 0 ∧ 0 < short.netShortfall ∧ short.ladder = [0]
    ∧ bare.headroom < 0 ∧ 0 < bare.netShortfall ∧ bare.ladder = [] ∧ bare.se.state ≠ .exhausted
    ∧ bare.onLadder 0 = false
    ∧ (less (withFeeder .revoking 200) 600).headroom < 0 ∧ (less (withFeeder .revoking 200) 600).netShortfall ≤ 0 := by
  decide +kernel
/-- Feeders 0 and 1 on the ladder, feeder 1 of the later class first, and headroom below 0. -/
def pair (kw : Nat) : State :=
  let p := { feederPermit .staging 0 with revokeReason := none }
  less (holding (withFeeder .granted 200) 1 { p with state := .granted, holder := some (.feeder 1), cls := 3, released := 200 }) kw
theorem meets_ShedState_ladder : (pair 351).ladder = [1, 0] ∧ (pair 351).netShortfall = 1 ∧ (pair 550).netShortfall = 200
    ∧ (pair 551).netShortfall = 201 ∧ (pair 750).netShortfall = 400 ∧ (pair 751).netShortfall = 401
    ∧ sumOver (fun i => ((pair 351).permit i).charge) [1] = 200 ∧ sumOver (fun i => ((pair 351).permit i).charge) [1, 0] = 400
    ∧ (pair 751).se.state ≠ .exhausted ∧ (pair 351).ae.inFlight = none ∧ (pair 351).active = true ∧ (pair 351).headroom < 0
    ∧ (let s := less (flying (withFeeder .staging 0)) 600
      s.ladder = 0 :: [] ∧ 0 < s.netShortfall ∧ s.ae.inFlight = some { handle := ⟨0, 1⟩, feeder := 0, kw := 200 }
        ∧ (s.permit 0).gen = 1 ∧ (s.permit 0).state = .staging ∧ (s.permit 0).released = 0 ∧ s.ae.stepGuard ≠ none
        ∧ s.headroom < 0) := by decide +kernel
/-- Three on the ladder: the later class first, then the fewer shed seconds, then the lower feeder number. -/
def three (seconds : Nat) : State :=
  let p := { feederPermit .granted 200 with revokeReason := none }
  let s := holding (pair 351) 2 { p with holder := some (.feeder 2) }
  let s := (s.setFeeder 2 { s.feeder 2 with addr := some 5 }).setEntry 5 (boundTo (.feeder 2))
  s.setFeeder 0 { s.feeder 0 with shedSeconds := seconds }
theorem meets_ShedState_order : (three 0).ladder = [1, 0, 2] ∧ (three 1).ladder = [1, 2, 0]
    ∧ ((three 1).feeder 2).shedSeconds < ((three 1).feeder 0).shedSeconds
    ∧ ((three 0).feeder 2).shedSeconds = ((three 0).feeder 0).shedSeconds := by decide +kernel
/-- A STAGING permit with nothing released, selected with its release in flight and with none: REVOKING, and SHED at once. -/
theorem meets_ShedState_flight :
    let s := less (flying (withFeeder .staging 0)) 600
    let u := less (withFeeder .staging 0) 600
    (s.ae.candidate = none ∧ s.ae.waitQueue = [] ∧ s.ladder = [0] ∧ s.flightTo 0 = true ∧ s.ae.stepGuard ≠ none
        ∧ (s.permit 0).state = .staging ∧ 0 < s.netShortfall
        ∧ s.netShortfall ≤ (sumOver (fun i => (s.permit i).charge) (s.ladder.take 1) : Nat))
      ∧ (u.ae.inFlight = none ∧ u.ladder = [0] ∧ (u.permit 0).released = 0 ∧ u.flightTo 0 = false
        ∧ (u.permit 0).holder = some (.feeder 0) ∧ 0 < u.netShortfall) := by decide +kernel
theorem meets_Reports : (reported true 0).answer = none ∧ (plant .dark).ic.state = .dark ∧ (plant .restart).ic.state = .restart
    ∧ (reported true 0).report.closed = true
    ∧ ((plant .dark).took (.seReplyDelivery (reported true 0))).openHeld 0 = false := by decide +kernel
/-- Feeder 0's refusal of an OPEN that names this permit. -/
def refusing (o : Option Handle) (closed : Bool) : FeederDelivery :=
  { feeder := 0, was := .inContact, report := { closed := closed, isLocal := false, draw := 150 }
    answer := some { sent := { order := .open_ o, owner := .se, urgent := true, number := 1, attempts := 0 }, accepted := false } }
theorem meets_Reports_refused : (withFeeder .revoking 200).permitOf 0 = some 0
    ∧ (some ⟨0, 1⟩ : Option Handle) = some ⟨0, ((withFeeder .revoking 200).permit 0).gen⟩
    ∧ ((withFeeder .revoking 200).permit 0).state = .revoking ∧ ((withFeeder .revoking 200).permit 0).holder = some (.feeder 0)
    ∧ (refusing (some ⟨0, 1⟩) true).report.closed = true ∧ 0 < ((withFeeder .revoking 200).permit 0).released
    ∧ ((withFeeder .revoking 0).permit 0).released = 0 ∧ (withFeeder .revoking 0).permitOf 0 = some 0
    ∧ ((withFeeder .revoking 0).permit 0).state = .revoking
    ∧ (some ⟨0, 2⟩ : Option Handle) ≠ some ⟨0, ((withFeeder .revoking 200).permit 0).gen⟩
    ∧ (withFeeder .revoking 200).se.state = .idle
    ∧ (restoring 0).ic.state = .restore ∧ ((restoring 0).took (.seReplyDelivery
      { reported true 0 with feeder := 1 })).openHeld 1 = false
    ∧ (restoring 0).permitOf 1 = none
    ∧ (∀ e ∈ (restoring 0).ic.restoreList.take ((restoring 0).ic.walkPointer + 1), e.feeder ≠ 1) := by decide +kernel
/-- An OPEN of an earlier revocation, refused, leaves the running one (R62). -/
theorem test_refusal_of_another_open :
    ((after (.seReplyDelivery (refusing (some ⟨0, 2⟩) true)) (withFeeder .revoking 200)).permit 0).state = .revoking
    ∧ ((after (.seReplyDelivery (refusing (some ⟨0, 1⟩) true)) (withFeeder .revoking 200)).permit 0).state = .granted := by
  decide +kernel
theorem exact_sheds : short.listsExact ∧ (withFeeder .revoking 0).listsExact :=
  ⟨listsExact_of (by decide +kernel), listsExact_of (by decide +kernel)⟩

/-! ### Gensets -/

/-- The plant with genset 0 changed. -/
def tuned (s : State) (f : Genset → Genset) : State := s.setGenset 0 (f (s.genset 0))
def inState (st : GensetState) : State := tuned (plant .run) fun g => { g with state := st, minRun := none }
/-- A run of genset 1 in a lane. -/
def aRun (st : RunState) : Run := { genset := 1, origin := .station, state := st }
/-- The plant with genset 1 STARTING in lane A with this run, and another run in lane B, which holds genset 2. -/
def running (r : Run) : State :=
  let s := (plant .run).setGenset 1 { (plant .run).genset 1 with state := .starting }
  { s with gs := { s.gs with laneA := some r } }
def full (s : State) : State :=
  { s with gs := { s.gs with laneA := s.gs.laneA.getD (aRun .held), laneB := some { aRun .held with genset := 2 } } }
/-- A run with this step in flight and its limit running. -/
def stepping (k : StepKind) : Run :=
  { aRun .stepping with
    inFlight := some { pos := 17, step := { kind := k, arg := 1, limit := 10 } }, stepTimer := some 1000 }
theorem meets_SetGenset : (plant .run).ic.state ≠ .setup ∧ ((plant .run).genset 0).state = .online
    ∧ (plant .run).laneOf 1 = none ∧ ((plant .run).genset 1).state = .off
    ∧ (∃ k : GensetNo, k ≠ 1 ∧ ∃ q, ((plant .run).genset k).profile = some q ∧ q.merit = 0)
    ∧ ((plant .run).genset 5).profile = none
    ∧ (∀ d, (some 7 : Option Nat) = some d → d < 8) ∧ ¬ (∀ d, (some 8 : Option Nat) = some d → d < 8)
    ∧ (plant .setup).ic.state = .setup := by
  refine ⟨by decide, by decide +kernel, by decide +kernel, by decide +kernel,
    ⟨0, by decide, profileOf 1000 300 400 0, by decide +kernel, rfl⟩, by decide +kernel, ?_, ?_, rfl⟩
  · rintro d ⟨⟩; decide
  · intro h; exact absurd (h 8 rfl) (by decide)
theorem meets_WriteStep : (∀ l q, (plant .run).run l ≠ some q)
    ∧ (∃ l q, (running (aRun .held)).run l = some q
      ∧ (((running (aRun .held)).genset q.genset).pointer.val / 16 = 0 ∨ ∃ f, q.inFlight = some f ∧ f.pos.val / 16 = 0))
    ∧ (∃ l q, (running (stepping .crank)).run l = some q
      ∧ (((running (stepping .crank)).genset q.genset).pointer.val / 16 = 1
        ∨ ∃ f, q.inFlight = some f ∧ f.pos.val / 16 = 1))
    ∧ (127 : Fin 128).val = 16 * 7 + 15 ∧ StepKind.ramp.code = byteOf 7 ∧ StepKind.end_.code = byteOf 0 := by
  refine ⟨?_, ⟨.a, aRun .held, by decide +kernel, Or.inl (by decide +kernel)⟩,
    ⟨.a, stepping .crank, by decide +kernel, Or.inr ⟨{ pos := 17, step := { kind := .crank, arg := 1, limit := 10 } }, rfl, by decide⟩⟩,
    by decide, by decide, by decide⟩
  intro l q h
  cases l <;> cases h
/-- The plant whose genset 1 has reported READY and whose program begins with a WAIT. -/
def readied : State :=
  let s := (plant .run).setGenset 1 { (plant .run).genset 1 with report := { ready := true } }
  { s with gs := { s.gs with store := s.gs.store.set 0 { kind := .wait, limit := 10 } } }
theorem meets_Start : (plant .dark).active = false ∧ (plant .run).active = true ∧ (standing (plant .run)).ic.standDown = true
    ∧ ((plant .run).genset 0).state ≠ .off ∧ ((plant .run).genset 5).profile = none
    ∧ ((plant .run).genset 1).profile ≠ none ∧ ((plant .run).genset 1).state = .off
    ∧ (full (plant .run)).gs.laneA ≠ none ∧ (full (plant .run)).gs.laneB ≠ none
    ∧ (plant .run).gs.laneA = none ∧ (plant .run).gs.queue = [] ∧ ((plant .run).genset 1).report.ready = false
    ∧ (readied.genset 1).report.ready = true ∧ (readied.gs.store[(readied.genset 1).runStart .station]).kind = .wait := by
  decide +kernel
/-- Lane A taken by genset 2 and lane B IDLE, without READY and with it. -/
theorem meets_Start_laneB :
    let beside (s : State) : State := { s with gs := { s.gs with laneA := some { aRun .held with genset := 2 } } }
    ∀ s ∈ [plant .run, readied], (beside s).run .b = none ∧ (beside s).gs.laneA ≠ none ∧ (beside s).gs.queue = []
      ∧ ((beside s).genset 1).state = .off ∧ ((beside s).genset 1).profile ≠ none := by decide +kernel
def queueing : State :=
  let s := full (plant .run)
  { s with gs := { s.gs with queue := [{ genset := 0, origin := .station }] } }
theorem meets_AbortStart : (plant .run).outside 1 ∧ queueing.queued 0 = true ∧ queueing.noLaneFree
    ∧ ((running (stepping .crank)).queued 1 = false ∧ (running (stepping .crank)).laneOf 1 = some .a
      ∧ (running (stepping .crank)).run .a = some (stepping .crank) ∧ (stepping .crank).state ≠ .aborting
      ∧ ((running (stepping .crank)).genset 1).state ≠ .online ∧ (stepping .crank).closeOrdered = false)
    ∧ (∀ l' q', (running (stepping .crank)).run l' = some q' → q'.genset = 1 → l' = .a)
    ∧ (full (running { stepping .close with closeOrdered := true })).noLaneFree := by
  refine ⟨⟨by decide +kernel, by decide +kernel⟩, by decide +kernel, Or.inr (by decide +kernel), by decide +kernel, ?_,
    Or.inr (by decide +kernel)⟩
  intro l q h _
  cases l
  · rfl
  · cases h
/-- Genset 1's run in a lane, the other lane taken by genset 4, and a STATION entry at the head of the Start Queue. -/
def relieved (l : LaneId) : State :=
  let other : Run := { aRun .held with genset := 4 }
  let more (st : GensetState) : Genset := { profile := some (profileOf 200 0 0 2), state := st }
  let s := ((running (stepping .crank)).setGenset 3 (more .off)).setGenset 4 (more .starting)
  { s with gs := { s.gs with
      laneA := some (if l = .a then stepping .crank else other), laneB := some (if l = .a then other else stepping .crank)
      queue := [{ genset := 3, origin := .station }] } }
theorem meets_AbortStart_freed (l : LaneId) : (relieved l).starts = true ∧ (relieved l).queued 1 = false
    ∧ (relieved l).laneOf 1 = some l ∧ (relieved l).run l = some (stepping .crank)
    ∧ ((relieved l).genset 3).report.ready = false ∧ (relieved l).gs.queue = { genset := 3, origin := .station } :: []
    ∧ (∀ l', l' ≠ l → ∃ q', (relieved l).run l' = some q' ∧ q'.state ≠ .tokenWait) := by
  cases l <;> refine ⟨by decide +kernel, by decide +kernel, by decide +kernel, by decide +kernel, by decide +kernel,
    by decide +kernel, fun l h => ?_⟩ <;> cases l <;>
    first | exact absurd rfl h | exact ⟨{ aRun .held with genset := 4 }, by decide +kernel⟩
/-- Genset 1 ONLINE in lane A, and its lane ABORTING. -/
def online (r : Run) : State :=
  (running r).setGenset 1 { (running r).genset 1 with state := .online, minRun := some 1000, report := { running := true, closed := true } }
theorem only_lane (r : Run) : (∀ l' q', (running r).run l' = some q' → q'.genset = 1 → l' = .a)
    ∧ (∀ l' q', (online r).run l' = some q' → q'.genset = 1 → l' = .a) := by
  constructor <;> intro l q h _ <;> cases l <;> first | rfl | cases h
theorem meets_AbortStart_online : (online (stepping .ramp)).queued 1 = false ∧ (online (stepping .ramp)).laneOf 1 = some .a
    ∧ (online (stepping .ramp)).run .a = some (stepping .ramp) ∧ ((online (stepping .ramp)).genset 1).state = .online
    ∧ (standing (online (stepping .ramp))).starts = false
    ∧ (full (running (aRun .aborting))).run .a = some (aRun .aborting) ∧ (full (running (aRun .aborting))).laneOf 1 = some .a
    ∧ (full (running (aRun .aborting))).queued 1 = false
    ∧ ((full (running (aRun .aborting))).gs.laneA.isSome = true ∧ (full (running (aRun .aborting))).gs.laneB.isSome = true) := by
  decide +kernel
/-- Genset 0 STOPPING in a phase, its limit running, its cool-down running in COOLING. -/
def stopping (p : StopPhase) : State :=
  tuned (plant .run) fun g => { g with
    state := .stopping, phase := some p, minRun := none
    phaseLimit := if p = .cooling then none else some 60000
    coolDown := if p = .cooling then some 30000 else none }
/-- Two gensets ONLINE, enough headroom to stop the second, and the stop delay running for it. -/
def overpowered : State :=
  let s := (plant .run).setGenset 1 { (plant .run).genset 1 with state := .online, minRun := some 0 }
  let s := (s.putSetting .autoStop 1).putSetting .stopLevel 750
  { s with gs := { s.gs with stopDelay := some 0, stopCandidate := some 1 } }
theorem meets_Stop : (plant .dark).active = false ∧ ((plant .run).genset 1).state ≠ .online
    ∧ ((plant .run).genset 0).state = .online ∧ (plant .run).outside 0
    ∧ (plant .run).headroom < (((plant .run).genset 0).rated : Int)
    ∧ (((less (plant .run) 0).genset 0).rated : Int) ≤ (less overpowered 0).headroom
    ∧ overpowered.gs.stopDelay ≠ none ∧ overpowered.gs.stopCandidate = some 1 ∧ overpowered.stopHolds = some 1
    ∧ (overpowered.putSetting .stopLevel 751).stopHolds = none
    ∧ (overpowered.genset 1).state = .online ∧ (plant .run).gs.stopDelay = none
    ∧ ((stopping .unloading).genset 0).state = .stopping ∧ ((stopping .unloading).genset 0).phaseLimit ≠ none
    ∧ ((stopping .opening).genset 0).phase = some .opening ∧ ((stopping .shutting).genset 0).phase = some .shutting
    ∧ (stopping .unloading).laneOf 0 = none ∧ (stopping .unloading).queued 0 = false
    ∧ ((stopping .cooling).genset 0).coolDown ≠ none ∧ ((stopping .cooling).genset 0).phaseLimit = none
    ∧ ((stopping .unloading).genset 0).coolDown = none
    ∧ (tuned (running { aRun .stepping with genset := 0 }) id).laneOf 0 ≠ none := by
  refine ⟨by decide, by decide +kernel, by decide +kernel, ⟨by decide +kernel, by decide +kernel⟩, by decide +kernel⟩
/-- The stop delay's end with the condition failing by a kW, nothing queued. -/
theorem meets_Stop_failing : let s := overpowered.putSetting .stopLevel 751
    s.gs.stopDelay ≠ none ∧ s.gs.stopCandidate = some 1 ∧ s.stopHolds = none ∧ s.queueRests :=
  ⟨by decide +kernel, by decide +kernel, by decide +kernel, Or.inr (by decide +kernel)⟩
/-- The stop condition with its candidate noted, the delay running, and idle. -/
theorem meets_Settings_stop : Setting.ofNumber 9 = some .autoStop ∧ Setting.ofNumber 10 = some .stopLevel
    ∧ (overpowered.putSetting .stopLevel 750).stopHolds = some 1 ∧ (overpowered.putSetting .stopLevel 751).stopHolds = none
    ∧ (overpowered.putSetting .autoStop 1).stopHolds = some 1 ∧ overpowered.gs.stopDelay ≠ none
    ∧ ({ overpowered with gs := { overpowered.gs with stopDelay := none } } : State).gs.stopDelay = none
    ∧ Setting.autoStop.inRange 0 = true ∧ Setting.autoStop.inRange 1 = true ∧ Setting.autoStop.inRange 2 = false := by
  decide +kernel
theorem meets_ClearLockUnlock : ((inState .failed).genset 0).state = .failed
    ∧ ((inState .failed).genset 0).profile = some (profileOf 1000 300 400 0) ∧ (full (inState .failed)).noLaneFree
    ∧ (standing (inState .off)).noLaneFree ∧ ((inState .locked).genset 0).state = .locked ∧ ((inState .unknown).genset 0).state = .unknown
    ∧ (inState .off).laneOf 0 = none ∧ ((plant .run).genset 0).state = .online
    ∧ ((tuned (inState .off) fun g => { g with rest := some 0 }).genset 0).rest ≠ none
    ∧ ((inState .off).genset 0).rest = none ∧ ((plant .run).genset 0).minRun ≠ none ∧ (plant .run).outside 0
    ∧ ((inState .off).genset 0).minRun = none := by
  refine ⟨by decide +kernel, by decide +kernel, Or.inr (by decide +kernel), Or.inl (by decide +kernel), by decide +kernel,
    by decide +kernel, by decide +kernel, by decide +kernel, by decide +kernel, by decide +kernel, by decide +kernel,
    ⟨by decide +kernel, by decide +kernel⟩, by decide +kernel⟩
/-- A genset cleared, and one whose rest has ended, that lane A takes at once. -/
theorem meets_ClearLockUnlock_taken :
    let rested := tuned (inState .off) fun g => { g with rest := some 0 }
    let cleared := tuned (inState .failed) fun g => { g with state := .off, attempts := 0, rest := none, pointer := slotStart 0 }
    (rested.starts = true ∧ rested.gs.laneA = none ∧ rested.gs.queue = [] ∧ rested.covered < rested.capacityWanted
        ∧ (tuned rested fun g => { g with rest := none }).eligibles = 0 :: [1]
        ∧ rested.capacityWanted ≤ rested.covered + (rested.genset 0).rated ∧ (rested.genset 0).report.ready = false)
      ∧ ((inState .failed).starts = true ∧ (inState .failed).gs.laneA = none
        ∧ (inState .failed).covered < (inState .failed).capacityWanted ∧ cleared.eligibles = 0 :: [1]
        ∧ (inState .failed).capacityWanted ≤ (inState .failed).covered + (cleared.genset 0).rated) := by decide +kernel
/-- A delivery of genset 0's report. -/
def measured (r : GensetReport) : GensetDelivery := { genset := 0, was := .inContact, report := r, answer := none }
def good : GensetReport := { running := true, closed := true, output := 300 }
theorem meets_GensetReports : (measured good).answer = none ∧ (plant .run).outside 0
    ∧ good.tripped = false ∧ good.closed = true ∧ (measured {}).report.closed = false
    ∧ ((inState .unknown).genset 0).profile = some (profileOf 1000 300 400 0)
    ∧ (good.running && good.closed && !good.tripped) = true ∧ (inState .unknown).active = true
    ∧ ((tuned (inState .unknown) fun g => { g with attempts := 2 }).genset 0).attempts = (profileOf 1000 300 400 0).maxAttempts
    ∧ ¬ (profileOf 1000 300 400 0).maxAttempts ≤ ((inState .unknown).genset 0).attempts
    ∧ (standing (inState .unknown)).starts = false ∧ ((plant .run).genset 5).profile = none
    ∧ ((plant .run).genset 5).state = .unknown ∧ (plant .run).laneOf 5 = none
    ∧ ((stopping .shutting).genset 0).phase = some .shutting ∧ (standing (stopping .shutting)).starts = false
    ∧ ((stopping .unloading).genset 0).phase = some .unloading ∧ good.output ≤ (profileOf 1000 300 400 0).minimum
    ∧ ((inState .failed).genset 0).state = .failed ∧ ((inState .off).genset 0).state = .off := by
  refine ⟨rfl, ⟨by decide +kernel, by decide +kernel⟩, by decide +kernel⟩
/-- A genset's refusal of the GS's order, behind its report. -/
def declining (o : Order) (r : GensetReport) : GensetDelivery :=
  { measured r with answer := some { sent := { order := o, owner := .gs, urgent := false, number := 1, attempts := 0 }, accepted := false } }
/-- An OFF genset outside the lanes, owed its STOP or not, and the unit's answers to it. -/
def owing (owed : Bool) : State := tuned (inState .off) fun g => { g with stopOwed := owed }
def obeying (o : Order) (r : GensetReport) : GensetDelivery :=
  { measured r with answer := some { sent := { order := o, owner := .gs, urgent := true, number := 1, attempts := 0 }, accepted := true } }
theorem meets_GensetReports_off : (owing true).outside 0 ∧ ((owing true).genset 0).state = .off ∧ (owing true).queueRests
    ∧ ((owing true).genset 0).phase = none ∧ ((owing true).genset 0).stopOwed = true ∧ ((owing false).genset 0).stopOwed = false
    ∧ (((owing true).took (.gsReplyDelivery (declining .stop {}))).slotView (.genset 0)) = none
    ∧ (((owing true).took (.gsReplyDelivery (obeying .stop {}))).slotView (.genset 0)) = none
    ∧ (obeying .stop {}).answer.any (fun a => a.accepted && a.sent.order == .stop) = true :=
  ⟨⟨by decide +kernel, by decide +kernel⟩, by decide +kernel, Or.inr (by decide +kernel), by decide +kernel⟩
/-- A refused STOP of a failed run is placed again, urgent, and an accepted one is owed no more (R96). -/
theorem test_stop_owed :
    (after (.gsReplyDelivery (declining .stop {})) (owing true)).events
      = [.orderPlacement { target := .genset 0, order := .stop, owner := .gs, urgent := true }]
    ∧ ((after (.gsReplyDelivery (declining .stop {})) (owing true)).genset 0).stopOwed = true
    ∧ ((after (.gsReplyDelivery (obeying .stop {})) (owing true)).genset 0).stopOwed = false := by decide +kernel
theorem meets_GensetReports_stopping : (stopping .unloading).outside 0 ∧ (stopping .opening).outside 0
    ∧ (stopping .cooling).outside 0 ∧ (stopping .shutting).outside 0
    ∧ ((stopping .unloading).genset 0).profile = some (profileOf 1000 300 400 0) ∧ (profileOf 1000 300 400 0).coolDown ≠ 0
    ∧ ({ profileOf 1000 300 400 0 with coolDown := 0 } : Profile).coolDown = 0
    ∧ (measured { tripped := true }).report.tripped = true ∧ (measured { good with output := 301 }).report.closed = true
    ∧ (profileOf 1000 300 400 0).minimum < 301 ∧ ((stopping .opening).genset 0).phase = some .opening
    ∧ ((stopping .cooling).genset 0).phase = some .cooling ∧ good.running = true
    ∧ (declining .unload { good with output := 301 }).answer.any (fun a => !a.accepted && a.sent.order == .unload) = true
    ∧ (declining .openBreaker good).answer.any (fun a => !a.accepted && a.sent.order == .openBreaker) = true
    ∧ (declining .stop good).answer.any (fun a => !a.accepted && a.sent.order == .stop) = true := by
  refine ⟨⟨?_, ?_⟩, ⟨?_, ?_⟩, ⟨?_, ?_⟩, ⟨?_, ?_⟩, ?_⟩ <;> decide +kernel
theorem meets_FailedRuns :
    let s := running (stepping .crank)
    let w := full (running (stepping .wait))
    s.run .a = some (stepping .crank) ∧ (s.genset 1).state ≠ .online ∧ s.queued 1 = false
      ∧ (∀ l' q', s.run l' = some q' → q'.genset = 1 → l' = .a)
      ∧ (stepping .crank).state ≠ .aborting ∧ (stepping .crank).stepTimer ≠ none
      ∧ (running { aRun .held with readyWait := some 0 }).run .a = some { aRun .held with readyWait := some 0 }
      ∧ (running { aRun .held with origin := .restart }).run .a = some { aRun .held with origin := .restart }
      ∧ (s.genset 1).attempts < (s.genset 1).maxAttempts
      ∧ ((s.setGenset 1 { s.genset 1 with attempts := 1 }).genset 1).attempts + 1 = (s.genset 1).maxAttempts
      ∧ w.run .a = some (stepping .wait) ∧ w.noLaneFree ∧ (w.genset 1).report.ready = false := by
  refine ⟨by decide +kernel, by decide +kernel, by decide +kernel, ?_, by decide +kernel, by decide +kernel, by decide +kernel,
    by decide +kernel, by decide +kernel, by decide +kernel, by decide +kernel, Or.inr (by decide +kernel), by decide +kernel⟩
  intro l q h _
  cases l
  · rfl
  · cases h
/-- The limit of a RAMP, its order still in the slot. -/
theorem meets_FailedRuns_ramp :
    let s := full (online (stepping .ramp))
    let o : SlotOrder := { order := .ramp 40, owner := .gs, urgent := false, number := 1, attempts := 0 }
    let u := (s.setGenset 1 { s.genset 1 with addr := some 9 }).setEntry 9 { boundTo (.genset 1) with slot := some o }
    let w := u.setGenset 1 { u.genset 1 with report := {} }
    w.run .a = some (stepping .ramp) ∧ (stepping .ramp).state ≠ .aborting ∧ (stepping .ramp).stepTimer ≠ none
      ∧ (w.gs.laneA.isSome = true ∧ w.gs.laneB.isSome = true) ∧ (w.genset 1).report.ready = false
      ∧ (w.took (.stepLimitExpiry .a)).slotView (.genset 1) = some (.ramp 40, .gs) := by decide +kernel
/-- Runs that fail: of an ONLINE genset, of one that trips, that is lost, and of an ABORTING lane. -/
theorem meets_FailedRuns_more : (online (stepping .sync)).run .a = some (stepping .sync)
    ∧ ((online (stepping .sync)).genset 1).state = .online ∧ (online (stepping .sync)).queued 1 = false
    ∧ (online { aRun .held with readyWait := some 0 }).run .a = some { aRun .held with readyWait := some 0 }
    ∧ ({ measured { tripped := true } with genset := 1 } : GensetDelivery).report.tripped = true
    ∧ ({ measured {} with genset := 1 } : GensetDelivery).report.closed = false
    ∧ (standing (running (stepping .crank))).starts = false
    ∧ (running { stepping .close with state := .aborting }).run .a = some { stepping .close with state := .aborting }
    ∧ ((running (stepping .close)).genset 1).state = .starting ∧ (stepping .close).stepTimer ≠ none
    ∧ ((running (stepping .close)).genset 1).profile = some (profileOf 500 150 200 1)
    ∧ (declining .close {}).answer.any (fun a => !a.accepted && a.sent.order == .close) = true
    ∧ (stepping .close).inFlight = some { pos := 17, step := { kind := .close, arg := 1, limit := 10 } }
    ∧ (∀ k, k = StepKind.crank ∨ k = .await ∨ k = .sync ∨ k = .close ∨ k = .deadclose ∨ k = .end_ → k ≠ .wait ∧ k ≠ .ramp) := by
  refine ⟨?_, ?_, ?_, ?_, ?_, ?_, ?_, ?_, ?_, ?_, ?_, ?_, ?_, ?_⟩
  case refine_14 => rintro k (h | h | h | h | h | h) <;> subst h <;> decide
  all_goals decide +kernel
/-- Genset 1 in lane A with a WAIT in flight, READY reported, and this step next. -/
def stepNext (k : StepKind) (arg : Nat) (s : State) : State :=
  let s := s.setGenset 1 { s.genset 1 with pointer := 18, report := { (s.genset 1).report with ready := true } }
  { s with gs := { s.gs with store := s.gs.store.set 18 { kind := k, arg := arg, limit := 20 } } }
/-- A held bus DEAD with genset 1 the lead in RESTART. -/
def relit (s : State) : State := { s with ic := { s.ic with state := .restart, heldLive := false, lead := some 1 } }
/-- Lane B with genset 2, STARTING, the token with it or waited for. -/
def beside (r : Run) (s : State) : State :=
  let s := s.setGenset 2 { s.genset 2 with state := .starting }
  { s with gs := { s.gs with laneB := some { r with genset := 2 } } }
theorem meets_LaneSteps :
    let s (k : StepKind) (arg : Nat) := stepNext k arg (running (stepping .wait))
    (stepping .wait).state ≠ .aborting ∧ (stepping .wait).stepTimer ≠ none
      ∧ (stepping .wait).inFlight = some { pos := 17, step := { kind := .wait, arg := 1, limit := 10 } }
      ∧ (∀ k, (s k 1).run .a = some (stepping .wait) ∧ ((s k 1).genset 1).report.ready = true ∧ (s k 1).queued 1 = false
        ∧ (s k 1).gs.queue = [] ∧ ((s k 1).gs.store[((s k 1).genset 1).pointer]).kind = k
        ∧ (∀ l' q', (s k 1).run l' = some q' → q'.genset = 1 → l' = .a))
      ∧ ((s .crank 0).genset 1).report.running = false
      ∧ (∀ arg, arg = 1 ∨ arg = 2 ∨ arg = 3 → (((s .await arg).gs.store[((s .await arg).genset 1).pointer]).arg = arg
        ∧ ((s .await arg).genset 1).report = { ready := true }))
      ∧ (s .sync 0).ic.heldLive = true ∧ ((s .sync 0).genset 1).report.synced = false
      ∧ (∀ l' q', (s .sync 0).run l' = some q' → q'.token = false)
      ∧ (beside { aRun .stepping with token := true } (s .sync 0)).gs.laneB.any (·.token) = true
      ∧ (let d := relit (s .deadclose 0)
        d.ic.state = .restart ∧ d.ic.lead = some 1 ∧ d.ic.heldLive = false ∧ (d.genset 1).report.closed = false)
      ∧ ((s .sync 0).ic.heldLive = true ∧ (relit (s .sync 0)).ic.heldLive = false ∧ (s .deadclose 0).ic.state ≠ .restart)
      ∧ (stepping .wait).token = false
      ∧ ((stepNext .close 0 (running { stepping .wait with token := true })).run .a = some { stepping .wait with token := true })
      ∧ ((s .end_ 0).genset 1).state = .starting ∧ ((s .ramp 50).genset 1).state = .starting
      ∧ (let o := stepNext .end_ 0 (online (stepping .wait))
        (o.genset 1).state = .online ∧ (o.genset 1).profile = some (profileOf 500 150 200 1) ∧ o.run .a = some (stepping .wait))
      ∧ (standing (s .sync 0)).starts = false := by
  intro s
  refine ⟨by decide, by decide, by decide, ?_, by decide +kernel, ?_, by decide +kernel, by decide +kernel, ?_, ?_⟩
  · intro k
    cases k <;> refine ⟨by decide +kernel, by decide +kernel, by decide +kernel, by decide +kernel, by decide +kernel, ?_⟩ <;>
      intro l q h _ <;> cases l <;> first | rfl | cases h
  · rintro arg (h | h | h) <;> subst h <;> decide +kernel
  · intro l q h
    cases l
    · cases h; rfl
    · cases h
  · decide +kernel
/-- Genset 1's report, and a step in flight of this argument. -/
def telling (r : GensetReport) : GensetDelivery := { measured r with genset := 1 }
def argued (k : StepKind) (arg : Nat) : Run :=
  { stepping k with inFlight := some { pos := 17, step := { kind := k, arg := arg, limit := 10 } } }
theorem meets_LaneReports : (telling {}).answer = none ∧ (running (stepping .crank)).run .a = some (stepping .crank)
    ∧ (stepping .crank).genset = (telling {}).genset ∧ (running (stepping .crank)).gs.queue = []
    ∧ (telling {}).report.tripped = false ∧ ((running (stepping .crank)).genset 1).state = .starting
    ∧ ((online (stepping .ramp)).genset 1).state = .online ∧ (telling good).report.closed = true
    ∧ (∀ k ∈ [StepKind.crank, .await, .sync, .ramp, .close, .deadclose, .wait, .end_], (stepping k).state = .stepping
      ∧ (stepping k).inFlight = some { pos := 17, step := { kind := k, arg := 1, limit := 10 } })
    ∧ good.ready = false ∧ good.running = true ∧ ({} : GensetReport).running = false
    ∧ (argued .await 1).inFlight.map (·.step.arg) = some 1 ∧ (argued .await 3).inFlight.map (·.step.arg) = some 3
    ∧ ({ voltsOk := true } : GensetReport).voltsOk = true ∧ ({ warm := true } : GensetReport).warm = true
    ∧ ({ synced := true } : GensetReport).synced = true
    ∧ ((online (argued .ramp 60)).genset 1).profile = some (profileOf 500 150 200 1) ∧ 60 * 500 ≤ good.output * 100
    ∧ ¬ 61 * 500 ≤ good.output * 100
    ∧ (let s := beside { argued .sync 0 with state := .tokenWait } (running { stepping .close with token := true })
      s.run .b = some { argued .sync 0 with state := .tokenWait, genset := 2 } ∧ (s.genset 2).report.synced = false
        ∧ s.run .a = some { stepping .close with token := true } ∧ s.gs.queue = [])
    ∧ (aRun .tokenWait).state = .tokenWait ∧ (aRun .held).state = .held
    ∧ (let s := stepNext .wait 0 (running (aRun .held))
      s.run .a = some (aRun .held) ∧ (s.gs.store[(s.genset 1).pointer]).kind = .wait)
    ∧ (telling { ready := true }).report.ready = true := by decide +kernel
/-- An AWAIT that a report does not meet, for each argument; and one met with READY, a WAIT next. -/
theorem meets_LaneReports_await :
    (∀ arg, arg = 1 ∨ arg = 2 ∨ arg = 3 ∨ arg = 4 → (running (argued .await arg)).run .a = some (argued .await arg)
      ∧ (argued .await arg).state = .stepping
      ∧ (argued .await arg).inFlight = some { pos := 17, step := { kind := .await, arg := arg, limit := 10 } })
    ∧ (telling {}).report = {} ∧ ({} : GensetReport).voltsOk = false ∧ ({} : GensetReport).warm = false
    ∧ (let s := stepNext .wait 0 (running (argued .await 4))
      s.run .a = some (argued .await 4) ∧ (s.gs.store[(s.genset 1).pointer]).kind = .wait ∧ s.gs.queue = []
        ∧ (s.genset 1).state = .starting) := by
  refine ⟨?_, by decide +kernel⟩
  rintro arg (h | h | h | h) <;> subst h <;> decide +kernel
/-- The token passes to the lane that waits for it, whose SYNC begins (R91, R93). -/
theorem test_token_passes :
    let s := beside { argued .sync 0 with state := .tokenWait } (running { stepping .close with token := true })
    let t := after (.gsReplyDelivery (telling good)) s
    (t.genset 1).state = .online ∧ t.tokenHolder = some .b ∧ (t.gs.laneB.map (·.state)) = some .stepping := by decide +kernel
/-- A READY report takes a HELD lane into the next step. -/
theorem test_held_goes_on :
    ((after (.gsReplyDelivery (telling { ready := true })) (stepNext .crank 0 (running (aRun .held)))).gs.laneA.map (·.state))
      = some .stepping := by decide +kernel
theorem meets_LeadStarts : (running (aRun .held)).gs.laneA ≠ none ∧ ((plant .restart).genset 5).profile = none
    ∧ ((plant .restart).genset 0).state ≠ .off ∧ (plant .restart).gs.laneA = none
    ∧ ((plant .restart).genset 1).profile = some (profileOf 500 150 200 1) ∧ ((plant .restart).genset 1).state = .off
    ∧ ((plant .restart).genset 1).report.ready = false ∧ (profileOf 500 150 200 1).dark = some 1
    ∧ (plant .restart).laneOf 1 = none := by decide +kernel
/-- A lead without a dark slot, its pointer at a step 0, behind one, and in the last slot. -/
theorem meets_LeadStarts_alternate : ∀ k ∈ [(16 : Fin 128), 17, 127],
    let s := (plant .restart).setGenset 1 { (plant .restart).genset 1 with
      profile := some { profileOf 500 150 200 1 with dark := none }, pointer := k, rest := some 1 }
    s.gs.laneA = none ∧ (s.genset 1).state = .off ∧ (s.genset 1).report.ready = false
      ∧ ((after (.leadStartRequest 1) s).genset 1).rest = some 1 := by decide +kernel
theorem test_lead_alternate : [(16 : Fin 128), 17, 127].map (fun k =>
    ((after (.leadStartRequest 1) ((plant .restart).setGenset 1 { (plant .restart).genset 1 with
      profile := some { profileOf 500 150 200 1 with dark := none }, pointer := k })).genset 1).pointer) = [16, 32, 0] := by
  decide +kernel
/-- A genset that an adoption takes, in the dark plant. -/
def adoptee : State := (plant .dark).setGenset 1 { (plant .dark).genset 1 with report := good }
theorem meets_Adoptions : (adoptee.genset 1).profile ≠ none ∧ (adoptee.genset 1).state = .off
    ∧ adoptee.contactOf (.genset 1) = .inContact ∧ onBus (adoptee.genset 1).report = true
    ∧ (adoptee.took (.adoptionRequest .dark)).slotView (.genset 1) = none := by decide +kernel
theorem meets_Demand : (full (plant .run)).noLaneFree ∧ (full (standing (plant .run))).starts = false
    ∧ (full (plant .run)).starts = true
    ∧ ((full (plant .run)).putSetting .startLevel 751).covered < ((full (plant .run)).putSetting .startLevel 751).capacityWanted
    ∧ ((full (plant .run)).putSetting .startLevel 750).capacityWanted = 0
    ∧ (plant .dark).ic.state = .dark ∧ ((plant .dark).genset 0).state = .online
    ∧ (plant .setup).ic.state = .setup ∧ (plant .restart).ic.state = .restart := by
  exact ⟨Or.inr (by decide +kernel), by decide +kernel⟩
/-- Gensets 3 and 4, OFF, of 200 and 300 kW, in the plant with both lanes taken, and the Start Queue's DEMAND entries. -/
def fleet (wanted : Nat) (l : List GensetNo) : State :=
  let s := full (plant .run)
  let more (kw merit : Nat) : Genset := { profile := some (profileOf kw 0 0 merit), state := .off }
  let s := ((s.setGenset 3 (more 200 2)).setGenset 4 (more 300 3)).putSetting .startLevel (750 + wanted)
  { s with gs := { s.gs with queue := { genset := 5, origin := .station } :: l.map fun g => { genset := g, origin := .demand } } }
theorem meets_Demand_queue : (fleet 501 []).starts = true ∧ (fleet 501 []).eligibles = [1, 3, 4]
    ∧ (fleet 501 []).covered = 0 ∧ (fleet 501 []).capacityWanted = 501
    ∧ (after .gsBalanceUpdate (fleet 500 [])).gs.queue.length = 2 ∧ (after .gsBalanceUpdate (fleet 501 [])).gs.queue.length = 3
    ∧ (after .gsBalanceUpdate (fleet 2000 [])).gs.queue.length = 4
    ∧ (fleet 500 [1, 3, 4]).covered = 1000 ∧ (fleet 500 [1, 3, 4]).capacityWanted = 500
    ∧ ((fleet 500 [1, 3, 4]).gs.queue.map QueueEntry.genset).Nodup
    ∧ (after .gsBalanceUpdate (fleet 500 [1, 3, 4])).gs.queue.map (·.genset) = [5, 1]
    ∧ (after .gsBalanceUpdate (fleet 501 [1, 3, 4])).gs.queue.map (·.genset) = [5, 1, 3]
    ∧ (after .gsBalanceUpdate (fleet 701 [1, 3, 4])).gs.queue.map (·.genset) = [5, 1, 3, 4]
    ∧ (fleet 0 [1, 3, 4]).capacityWanted = 0 := by decide +kernel
/-- A genset that waits in the Start Queue between two others. -/
theorem meets_GensetReports_queued : let s := fleet 500 [3, 4]
    s.laneOf 3 = none ∧ s.queued 3 = true ∧ (s.genset 3).state = .off ∧ s.noLaneFree :=
  ⟨by decide +kernel, by decide +kernel, by decide +kernel, Or.inr (by decide +kernel)⟩
/-- A free lane takes what demand appends: lane A, lane B beside a taken one, and both. -/
theorem meets_Demand_taken :
    let s := (plant .run).putSetting .startLevel 751
    let b := { s with gs := { s.gs with laneA := some { aRun .held with genset := 2 } } }
    let f := { fleet 501 [] with gs := { (fleet 501 []).gs with laneA := none, laneB := none, queue := [] } }
    (s.starts = true ∧ s.gs.queue = [] ∧ s.run .a = none ∧ s.covered < s.capacityWanted ∧ s.eligibles = 1 :: []
        ∧ (s.genset 1).report.ready = false ∧ s.capacityWanted ≤ s.covered + (s.genset 1).rated)
      ∧ (b.gs.laneA ≠ none ∧ b.run .b = none ∧ b.covered < b.capacityWanted ∧ b.eligibles = 1 :: []
        ∧ b.capacityWanted ≤ b.covered + (b.genset 1).rated)
      ∧ (f.starts = true ∧ f.gs.queue = [] ∧ f.eligibles = 1 :: [3, 4] ∧ (f.genset 3).report.ready = false
        ∧ f.covered + (f.genset 1).rated < f.capacityWanted
        ∧ f.capacityWanted ≤ f.covered + (f.genset 1).rated + (f.genset 3).rated) := by decide +kernel
/-- The stop condition holds, with the delay running for its candidate, for another, and idle; and it fails a kilowatt on. -/
theorem meets_StopJudged : overpowered.mayStop 1 ∧ overpowered.stopHolds = some 1
    ∧ (∀ k, k ≠ 1 → (overpowered.genset k).state = .online → (overpowered.genset k).merit < (overpowered.genset 1).merit)
    ∧ (overpowered.genset 1).minRun ≠ none ∧ (after .gsBalanceUpdate overpowered).stopHolds = some 1
    ∧ (after (.minRunExpiry 1) overpowered).stopHolds = some 1
    ∧ (after .gsBalanceUpdate (overpowered.putSetting .stopLevel 751)).stopHolds = none
    ∧ (overpowered.gs.stopDelay ≠ none ∧ overpowered.gs.stopCandidate = some 1)
    ∧ (let s : State := { overpowered with gs := { overpowered.gs with stopCandidate := some 0 } }
      (after .gsBalanceUpdate s).stopHolds = some 1 ∧ (after .gsBalanceUpdate s).gs.stopDelay = some 300000) := by
  refine ⟨?_, by decide +kernel, by decide +kernel, by decide +kernel, by decide +kernel, by decide +kernel, by decide +kernel,
    by decide +kernel, by decide +kernel⟩
  unfold State.mayStop
  decide +kernel
/-- A STOPPING genset as DARK is told. -/
theorem meets_Demand_dark : let s := isle (stopping .unloading) fun i => { i with state := .dark }
    s.ic.state = .dark ∧ (s.genset 0).state = .stopping ∧ s.laneOf 0 = none := by decide +kernel

/-! ### The invariants -/

/-- The invariant of the lanes, as a test. -/
def consistent (s : State) : Bool :=
  (match s.gs.laneA, s.gs.laneB with
    | some a, some b => a.genset != b.genset && !(a.token && b.token)
    | _, _ => true)
    && decide (s.gs.queue.map QueueEntry.genset).Nodup
    && s.gs.queue.all (fun e => (s.genset e.genset).state == .off && (s.genset e.genset).profile.isSome)
    && ([.a, .b] : List LaneId).all (fun l => (s.run l).all fun q =>
        (s.genset q.genset).state == .starting || (s.genset q.genset).state == .online)
    && (indices 6).all fun g => (s.genset g).state != .starting
        || ([.a, .b] : List LaneId).any fun l => (s.run l).any fun q => q.genset == g
theorem lanesConsistent_of {s : State} (h : consistent s = true) : s.lanesConsistent := by
  simp only [consistent, Bool.and_eq_true] at h
  obtain ⟨⟨⟨⟨h1, h2⟩, h3⟩, h4⟩, h5⟩ := h
  refine ⟨fun a b ha hb => ?_, by simpa using h2, fun e he => ?_, fun l q hq => ?_, fun g hg => ?_⟩
  · rw [ha, hb] at h1
    simp only [Bool.and_eq_true, bne_iff_ne, Bool.not_eq_true', Bool.and_eq_false_iff] at h1
    refine ⟨h1.1, fun k => ?_⟩
    rcases h1.2 with k' | k'
    · rw [k'] at k; cases k.1
    · rw [k'] at k; cases k.2
  · have := List.all_eq_true.mp h3 e he
    simp only [Bool.and_eq_true, beq_iff_eq] at this
    exact ⟨this.1, fun k => by rw [k] at this; cases this.2⟩
  · have := List.all_eq_true.mp h4 l (by cases l <;> simp)
    rw [hq] at this
    simpa using this
  · have := List.all_eq_true.mp h5 g (by simp [indices])
    rw [hg] at this
    obtain ⟨l, _, hl⟩ := List.any_eq_true.mp (by simpa using this : ([.a, .b] : List LaneId).any (fun l =>
      (s.run l).any fun q => q.genset == g) = true)
    cases hq : s.run l with
    | none => rw [hq] at hl; cases hl
    | some q => rw [hq] at hl; exact ⟨l, q, hq, by simpa using hl⟩
theorem meets_AbortStart_consistent (l : LaneId) : (relieved l).lanesConsistent :=
  lanesConsistent_of (by cases l <;> decide +kernel)
/-- RESUME with lane A IDLE, lane B taken by genset 4, and a STATION entry at the head of the Start Queue. -/
theorem meets_Resume_taken :
    let t := (relieved .a).setGenset 1 { (relieved .a).genset 1 with state := .off }
    let s := standing { t with gs := { t.gs with laneA := none } }
    s.lanesConsistent ∧ s.active = true ∧ s.gs.laneA = none ∧ s.gs.laneB ≠ none
      ∧ s.gs.queue = { genset := 3, origin := .station } :: [] ∧ (s.genset 3).report.ready = false :=
  ⟨lanesConsistent_of (by decide +kernel), by decide +kernel⟩
/-- Two gensets STARTING in the lanes, one with the token, and one in the Start Queue. -/
def busy : State :=
  let s := beside { argued .sync 0 with state := .tokenWait } (running { stepping .close with token := true })
  let s := s.setGenset 3 { profile := some (profileOf 200 0 0 2), state := .off }
  { s with gs := { s.gs with queue := [{ genset := 3, origin := .station }] } }
theorem meets_StepKeepsLanes : busy.lanesConsistent ∧ (plant .run).lanesConsistent ∧ ∃ t, step busy = .next t :=
  ⟨lanesConsistent_of (by decide +kernel), lanesConsistent_of (by decide +kernel), next_of (by decide +kernel)⟩
/-- A state with the settings and the configuration lists of `plant` is sound where its permit lists are exact. -/
theorem sound_of {s : State} (h₀ : s.sp.settings = (plant .run).sp.settings) (h₁ : s.flc.pollList = (plant .run).flc.pollList)
    (h₂ : s.ic.leadOrder = (plant .run).ic.leadOrder) (h₃ : s.ic.restoreList = (plant .run).ic.restoreList)
    (h : s.listsExact) : s.sound := by
  have k := test_plant_sound
  refine ⟨fun st => ?_, ?_, h⟩
  · have k := k.1 st
    simp only [State.setting] at k ⊢
    rwa [h₀]
  · have k := k.2.1
    unfold State.listsFormed at k ⊢
    rwa [h₁, h₂, h₃]
/-- With 16 permits in the Wait Queue, with 8 reservations, and with needs at the ends of their range: sound states all. -/
theorem meets_StepKeepsEachFeeder_sound : (crowd 16 (small .queued) true).sound ∧ (crowd 8 (small .granted) false).sound
    ∧ ({ withFeeder .granted 200 with needs := { ae := some 1, ic := some 16000 } } : State).sound := by
  refine ⟨sound_of ?_ ?_ ?_ ?_ (listsExact_of ?_), sound_of ?_ ?_ ?_ ?_ (listsExact_of ?_),
    sound_of ?_ ?_ ?_ ?_ (listsExact_of ?_)⟩ <;> decide +kernel
theorem meets_StepKeepsEachFeeder : (crowd 16 (small .queued) true).permitsSingle ∧ (crowd 8 (small .granted) false).permitsSingle
    ∧ ({ withFeeder .granted 200 with needs := { ae := some 1, ic := some 16000 } } : State).permitsSingle
    ∧ ∃ t, step (crowd 16 (small .queued) true) = .next t := by
  refine ⟨⟨by decide +kernel, by decide +kernel, by decide +kernel, by decide +kernel, ?_⟩,
    ⟨by decide +kernel, by decide +kernel, by decide +kernel, by decide +kernel, ?_⟩,
    ⟨by decide +kernel, by decide +kernel, by decide +kernel, by decide +kernel, ?_⟩, next_of (by decide +kernel)⟩
  · have h : (crowd 16 (small .queued) true).needs.ae = none ∧ (crowd 16 (small .queued) true).needs.ic = none := by decide +kernel
    rintro kw (k | k)
    · rw [h.1] at k; cases k
    · rw [h.2] at k; cases k
  · have h : (crowd 8 (small .granted) false).needs.ae = none ∧ (crowd 8 (small .granted) false).needs.ic = none := by decide +kernel
    rintro kw (k | k)
    · rw [h.1] at k; cases k
    · rw [h.2] at k; cases k
  · rintro kw (k | k) <;> cases k <;> decide
theorem meets_FeederReplies_stale_single : (withReservation .granted).permitsSingle ∧ (withFeeder .granted 200).permitsSingle := by
  refine ⟨⟨by decide +kernel, by decide +kernel, by decide +kernel, by decide +kernel, ?_⟩,
    ⟨by decide +kernel, by decide +kernel, by decide +kernel, by decide +kernel, ?_⟩⟩ <;>
    rintro kw (k | k) <;> cases k
/-- Three permits in QUEUED and two in SHED, the lists in order and their settings in range. -/
def sorted : State :=
  let s := holding (crowd 3 (small .queued) true) 3 { feederPermit .shed 0 with holder := some (.feeder 3) }
  holding s 4 { feederPermit .shed 0 with holder := some (.feeder 4), cls := 0 }
theorem meets_StepKeepsLists_ordered : sorted.sound ∧ sorted.listsOrdered ∧ sorted.ae.waitQueue = [0, 1, 2]
    ∧ sorted.se.shedList = [4, 3] ∧ ∃ t, step sorted = .next t := by
  refine ⟨⟨fun st => ?_, ⟨⟨by decide +kernel, fun u => ?_⟩, by decide +kernel, by decide +kernel, by decide +kernel⟩,
    listsExact_of (by decide +kernel)⟩, ⟨by decide +kernel, by decide +kernel⟩, by decide +kernel, by decide +kernel,
    next_of (by decide +kernel)⟩
  · cases st <;> decide +kernel
  · revert u; decide +kernel
/-- A state just before a moment that the millisecond brings. -/
theorem meets_Millisecond :
    let q := { withFeeder .queued 0 with clock := (plant .run).setting .startDemandDelay * 1000 - 1 }
    let d := { shedLong with clock := 29999 }
    let g := tuned (plant .run) fun r => { r with minRun := some 1 }
    (q.events = [] ∧ q.due = [] ∧ q.inReset = false ∧ q.ae.waitQueue = 0 :: []
        ∧ q.clock + 1 - (q.permit 0).queuedAt = q.setting .startDemandDelay * 1000)
      ∧ (d.events = [] ∧ d.due = [] ∧ (d.permit 0).state = .shed
        ∧ d.clock + 1 - (d.permit 0).shedAt = d.setting .minimumOffTime * 1000)
      ∧ (g.events = [] ∧ g.due = [] ∧ (g.genset 0).minRun = some 1) := by decide +kernel

/-! ### Arrays -/

/-- The CU in a state, array 0 in a state, its share the whole, the ceiling 150 kW. -/
def solar (st : CurtailState) (a : ArrayState) (target : Option Cap) : State :=
  let s := withFeeder .granted 200
  let s := s.setGenset 0 { s.genset 0 with profile := some (profileOf 1000 0 400 0) }
  let s := s.setArray 0 { s.array 0 with state := a, target := target }
  { s with cu := { s.cu with
      state := st, bankA := s.cu.bankA.set 0 { weight := 100, limit := 16000, enabled := true }
      resumeState := if st = .darkHold then some .watch else none } }
def holdOf (cap remaining : Nat) : ArrayState := .held { cap := cap, remaining := remaining, length := 40, quantum := 0 }
def engaged : State := solar .engaged (holdOf 50 20) (some (.kw 150))
/-- The CU in OFF with array 0 at this output. -/
def putOut (kw : Kw) : State :=
  let s := solar .off (holdOf 50 20) none
  s.setArray 0 { s.array 0 with lastOutput := kw }
theorem meets_SetArray : (plant .run).ic.state ≠ .setup ∧ engaged.cu.state ≠ .off ∧ (plant .run).cu.state = .off
    ∧ (plant .setup).ic.state = .setup ∧ (7 : ArrayNo).val = 7 ∧ (plant .run).cu.current = .a
    ∧ ({ plant .run with cu := { (plant .run).cu with current := .b } } : State).cu.current = .b := by decide +kernel
/-- A removal with an order in the array's slot. -/
theorem meets_SetArray_order :
    let o : SlotOrder := { order := .hold 50 40, owner := .cu, urgent := false, number := 1, attempts := 0 }
    let s := (plant .run).setEntry 4 { (plant .run).entry 4 with slot := some o }
    s.cu.state = .off ∧ s.slotView (.array 0) = some (.hold 50 40, .cu) := by decide +kernel
theorem meets_CurtailCommands : (plant .run).cu.state = .off ∧ (solar .watch .unheld none).cu.state = .watch
    ∧ engaged.cu.state = .engaged ∧ (solar .disengaging .unheld none).cu.state = .disengaging
    ∧ (solar .darkHold .unheld none).cu.state = .darkHold
    ∧ ((plant .run).active = true ∧ (plant .run).engages = true)
    ∧ (putOut 151).engages = true ∧ (putOut 150).engages = false := by decide +kernel
theorem meets_Targets : engaged.cu.state = .engaged ∧ (engaged.array 0).definition = some { nameplate := 500, fallback := 100 }
    ∧ ((engaged.share 0).enabled = true ∧ (engaged.share 0).weight ≠ 0 ∧ engaged.reachable 0 = true)
    ∧ engaged.ceiling = 150 ∧ engaged.targetOf 0 = some (.kw 150)
    ∧ ((plant .run).share 0).enabled = false ∧ (solar .disengaging .unheld none).cu.state = .disengaging := by decide +kernel
theorem meets_Tellings : (solar .watch .unheld none).cu.state = .watch ∧ (solar .watch .unheld none).active = true
    ∧ (solar .darkHold .unheld none).cu.resumeState = some .watch
    ∧ ((plant .dark).array 0).definition.isSome = true ∧ (plant .dark).contactOf (.array 0) ≠ .lost
    ∧ ((plant .dark).array 1).definition.isSome = false := by decide +kernel
/-- An order of the CU as sent, and a unit's answer to it in a delivery of array 0. -/
def sentHold : SlotOrder := { order := .hold 50 40, owner := .cu, urgent := false, number := 1, attempts := 0 }
def answered (o : SlotOrder) (yes : Bool) : ArrayDelivery :=
  { array := 0, was := .inContact, output := 16000, answer := some { sent := o, accepted := yes } }
theorem meets_ArrayAnswers : (answered sentHold true).output ≤ 16000 ∧ (engaged.array 0).definition ≠ none
    ∧ (answered sentHold false).answer = some { sent := sentHold, accepted := false }
    ∧ (answered { sentHold with order := .release } true).answer
      = some { sent := { sentHold with order := .release }, accepted := true }
    ∧ (engaged.array 0).isHeld = true ∧ ((plant .run).array 0).isHeld = false ∧ (plant .run).reachable 7 = false
    ∧ ((plant .run).array 1).definition = none := by decide +kernel
/-- Engagement on the report alone, undone by the accepted HOLD, and on what an accepted RELEASE leaves alone. -/
theorem meets_ArrayAnswers_engaging :
    let onReport := solar .watch .unheld none
    let onAnswer := solar .watch (holdOf 50 20) none
    let d (o : Order) : ArrayDelivery := { answered { sentHold with order := o } true with output := 0 }
    (onReport.active = true ∧ (onReport.setArray 0 { onReport.array 0 with lastOutput := 0 }).engages = true
        ∧ (after (.cuReplyDelivery (d (.hold 50 40))) onReport).engages = false)
      ∧ ((onAnswer.setArray 0 { onAnswer.array 0 with lastOutput := 0 }).engages = false
        ∧ (after (.cuReplyDelivery (d .release)) onAnswer).engages = true)
      ∧ (onAnswer.setArray 0 { onAnswer.array 0 with lastOutput := 0 }).cu.state = .watch := by decide +kernel
/-- In WATCH the loss of a HELD array, and its lapse, raise the exposure above the ceiling or leave it below. -/
theorem meets_ArrayLoss_engaging :
    let s (fallback : Kw) : State := (solar .watch (holdOf 50 20) none).setArray 0
      { (solar .watch (holdOf 50 20) none).array 0 with definition := some { nameplate := 500, fallback := fallback } }
    ∀ c ∈ [Instr.cuContactLost 0 .lost, .holdLapse 0],
      ((s 151).cu.state = .watch ∧ (s 151).active = true ∧ (after c (s 151)).exposure ≠ (s 151).exposure
        ∧ (after c (s 151)).engages = true ∧ (after c (s 151)).cu.state = .engaged)
      ∧ (after c (s 150)).exposure ≠ (s 150).exposure ∧ (after c (s 150)).engages = false
      ∧ (after c (s 150)).cu.state = .watch := by decide +kernel
/-- SILENT changes no exposure, so engagement is not judged (R124). -/
theorem test_silent_not_engaged : (solar .watch .unheld none).engages = true
    ∧ (after (.cuContactLost 0 .silent) (solar .watch .unheld none)).cu.state = .watch := by decide +kernel
/-- A report that meets the engagement test engages, whatever its REPLY's answer then leaves (R124, R175). -/
theorem test_engaged_on_report :
    (after (.cuReplyDelivery { answered sentHold true with output := 0 }) (solar .watch .unheld none)).cu.state = .engaged := by
  decide +kernel
theorem meets_Holds : ((plant .run).array 0).isHeld = false
    ∧ (engaged.array 0).state = .held { cap := 50, remaining := 20, length := 40, quantum := 0 }
    ∧ engaged.mayOrder 0 = true ∧ (engaged.array 0).ordered = none ∧ 1 < 20 ∧ 2 * (20 - 1) ≤ 40
    ∧ ((solar .engaged (holdOf 50 22) none).array 0).state = .held { cap := 50, remaining := 22, length := 40, quantum := 0 }
    ∧ 40 < 2 * (22 - 1) ∧ 2 * (21 - 1) ≤ 40 ∧ ((solar .engaged (holdOf 50 1) none).array 0).isHeld = true
    ∧ (engaged.setArray 0 { engaged.array 0 with refusal := true }).mayOrder 0 = false := by decide +kernel
/-- What array 0 lacks at the share period: 100 kW, and nothing where it is held at its share. -/
def lacking (s : State) (a : ArrayNo) (n : Kw) : Prop :=
  (after .sharePeriodExpiry s).callsRaise a = true ∧ 0 < n
    ∧ ((after .sharePeriodExpiry s).array a).exposure + n = ((after .sharePeriodExpiry s).array a).targetLevel
theorem meets_SharePeriod : engaged.cu.claim = none ∧ engaged.active = true ∧ engaged.cu.state ≠ .darkHold
    ∧ (∃ a n, lacking engaged a n) ∧ (∀ a n, ¬ lacking (solar .engaged (holdOf 150 20) none) a n)
    ∧ ({ engaged with cu := { engaged.cu with claim := some .raise } } : State).cu.claim ≠ none
    ∧ (plant .dark).active = false := by
  refine ⟨by decide +kernel, by decide +kernel, by decide +kernel, ⟨0, 100, by decide +kernel, by decide, by decide +kernel⟩, ?_,
    by decide +kernel, by decide +kernel⟩
  have h : ∀ a, (after .sharePeriodExpiry (solar .engaged (holdOf 150 20) none)).callsRaise a = false := by decide +kernel
  rintro a n ⟨k, _⟩
  rw [h a] at k
  cases k
/-- Array 0 with a claimed cap. -/
def claimed (cap : Kw) (target : Option Cap) : State :=
  let s := solar .engaged (holdOf 50 20) target
  s.setArray 0 { s.array 0 with claimed := some cap }
theorem meets_RaiseAnswer : ((claimed 150 (some (.kw 150))).array 0).claimed = some 150
    ∧ ((claimed 150 (some (.kw 150))).array 0).isHeld = true ∧ (claimed 150 (some (.kw 150))).mayOrder 0 = true
    ∧ (150 : Nat) ≤ ((claimed 150 (some (.kw 150))).array 0).targetLevel
    ∧ ((claimed 500 (some .unheld)).array 0).nameplate ≤ 500 ∧ ((claimed 500 (some .unheld)).array 0).target = some .unheld
    ∧ (500 : Nat) ≤ ((claimed 500 (some .unheld)).array 0).targetLevel
    ∧ ((claimed 151 (some (.kw 150))).array 0).targetLevel < 151 ∧ (engaged.array 0).claimed = none
    ∧ ({ engaged with cu := { engaged.cu with releaseWaiting := true } } : State).cu.releaseWaiting = true
    ∧ ((engaged.cu.state = .engaged ∨ engaged.cu.state = .disengaging) ∧ engaged.active = true)
    ∧ ¬ (((plant .run).cu.state = .engaged ∨ (plant .run).cu.state = .disengaging) ∧ (plant .run).active = true) := by
  decide +kernel
/-- Records with their fields present: a used permit of each holder, a profile, a lane with its step, an array held with orders. -/
theorem meets_LookUp_records : ((withFeeder .granted 200).permit 0).state ≠ .free
    ∧ ((withFeeder .granted 200).permit 0).holder = some (.feeder 0) ∧ ((withFeeder .granted 200).permit 0).ofFeeder = true
    ∧ ((withFeeder .granted 200).permit 0).state.charged = true ∧ ((withReservation .granted).permit 0).expiryGiven = some 60
    ∧ ((plant .run).genset 0).profile = some (profileOf 1000 300 400 0) ∧ (plant .run).run .a = none
    ∧ (running (stepping .crank)).run .a = some (stepping .crank)
    ∧ (stepping .crank).inFlight = some { pos := 17, step := { kind := .crank, arg := 1, limit := 10 } }
    ∧ (engaged.array 0).definition = some { nameplate := 500, fallback := 100 } ∧ (engaged.array 0).target = some (.kw 150)
    ∧ (engaged.array 0).state = .held { cap := 50, remaining := 20, length := 40, quantum := 0 }
    ∧ ((claimed 150 none).array 0).claimed = some 150 ∧ ((plant .run).entry 0).slot = none
    ∧ (engaged.setArray 0 { engaged.array 0 with ordered := some (.kw 50) }).array 0 = { engaged.array 0 with ordered := some (.kw 50) }
    := by decide +kernel
/-- Refusals at the share expiry: an array LAPSED under its mark, and one in DARK HOLD with no order. -/
theorem meets_SharePeriod_refused :
    let marked (s : State) : State := s.setArray 0 { s.array 0 with refusal := true }
    let l := marked (solar .engaged .lapsed (some (.kw 150)))
    let d := marked { solar .darkHold (holdOf 0 20) (some (.kw 0)) with ic := { (plant .dark).ic with state := .dark } }
    (l.array 0).refusal = true ∧ (l.array 0).state = .lapsed ∧ (after .sharePeriodExpiry l).mayOrder 0 = true
      ∧ (d.array 0).refusal = true ∧ (d.array 0).state ≠ .lapsed ∧ (d.array 0).ordered = none ∧ d.cu.state = .darkHold
      ∧ (after .sharePeriodExpiry d).mayOrder 0 = true := by decide +kernel
/-- The share expiry lowers an array, raises one whose exposure covers its target already, and renews one that is at its target,
and one whose raise must be claimed. -/
theorem meets_SharePeriod_orders :
    let at_ (cap remaining : Nat) (claimed : Option Kw) : State :=
      let s := solar .engaged (holdOf cap remaining) none
      s.setArray 0 { s.array 0 with claimed := claimed }
    let level (s : State) : Nat := ((after .sharePeriodExpiry s).array 0).targetLevel
    (∀ s ∈ [at_ 151 20 none, at_ 50 20 (some 150), at_ 150 20 none, at_ 50 20 none],
      level s = 150 ∧ (after .sharePeriodExpiry s).mayOrder 0 = true ∧ (s.array 0).state ≠ .lapsed ∧ s.active = true
        ∧ s.cu.state ≠ .darkHold)
      ∧ 150 < ((at_ 151 20 none).array 0).currentLevel
      ∧ (((at_ 50 20 (some 150)).array 0).currentLevel < 150 ∧ ((at_ 50 20 (some 150)).array 0).exposure = 150
        ∧ ((after .sharePeriodExpiry (at_ 50 20 (some 150))).array 0).target ≠ some .unheld)
      ∧ ((at_ 150 20 none).array 0).ordered = none ∧ (0 < 20 ∧ 20 ≤ 40 / 2)
      ∧ ¬ (150 ≤ ((after .sharePeriodExpiry (at_ 50 20 none)).array 0).exposure)
      ∧ ((after .sharePeriodExpiry (solar .watch (holdOf 500 20) none)).array 0).target = some .unheld
      ∧ (let s := solar .watch (holdOf 50 20) none
        let t := s.setArray 0 { s.array 0 with claimed := some 500 }
        (t.array 0).currentLevel < 500 ∧ (t.array 0).exposure = 500 ∧ t.active = true
          ∧ (after .sharePeriodExpiry t).mayOrder 0 = true
          ∧ ((after .sharePeriodExpiry t).array 0).target = some .unheld) := by decide +kernel
/-- A lowering ordered since the claim has passed the claimed cap, and not, at the target. -/
theorem meets_RaiseAnswer_passed :
    let low (s : State) : State := s.setArray 0 { s.array 0 with lowered := true }
    ((low (claimed 151 (some (.kw 150)))).array 0).lowered = true
      ∧ ((low (claimed 151 (some (.kw 150)))).array 0).targetLevel < 151
      ∧ ¬ ((low (claimed 150 (some (.kw 150)))).array 0).targetLevel < 150
      ∧ (solar .watch (holdOf 50 20) none).cu.state = .watch
      ∧ ((solar .watch .unheld none).active = true ∧ (solar .watch .unheld none).engages = true) := by decide +kernel
/-- The CU engaged with its release delay at its end; the array's limit just meets the ceiling, so the release condition holds. -/
def releasing (claim : Option ClaimKind) : State :=
  let s := solar .engaged (holdOf 150 20) (some (.kw 150))
  let narrow : Share := { weight := 100, limit := 150, enabled := true }
  { s with cu := { s.cu with releaseDelay := some 0, claim := claim, bankA := s.cu.bankA.set 0 narrow } }
theorem meets_Release : engaged.cu.releaseDelay = none ∧ (releasing none).cu.releaseDelay ≠ none
    ∧ (releasing none).releaseHolds = true ∧ (releasing (some .raise)).cu.claim = some .raise
    ∧ (releasing (some .release)).cu.claim = some .release ∧ (releasing (some .release)).cu.releaseDelay ≠ none ∧ (releasing none).cu.claim = none
    ∧ ((releasing none).cu.state = .engaged ∧ (releasing none).active = true)
    ∧ ((claimed 150 (some (.kw 150))).array 0).target ≠ some .unheld
    ∧ ((releasing none).putSetting .releaseLevel 1).releaseHolds = false
    ∧ (engaged.array 0).isHeld = true ∧ (engaged.array 0).exposure + 450 = (engaged.array 0).nameplate
    ∧ 0 < engaged.clipRaise 450 ∧ (less engaged 16000).clipRaise 450 = 0 := by decide +kernel
/-- The release condition judged: it holds with the delay running and idle, at a swap and on the return from DARK HOLD; it fails. -/
theorem meets_ReleaseJudged :
    let s := releasing none
    let idle : State := { s with cu := { s.cu with releaseDelay := none } }
    let dark : State := { idle with cu := { idle.cu with state := .darkHold, resumeState := some .engaged } }
    let swap : State := { s with cu := { s.cu with swapPending := true, bankB := s.cu.bankA } }
    let judged (t : State) : Prop := t.cu.state = .engaged ∧ t.active = true ∧ t.releaseHolds = true
    judged (after .cuBalanceUpdate s) ∧ s.cu.releaseDelay ≠ none
      ∧ judged (after .cuBalanceUpdate idle) ∧ (after .cuBalanceUpdate idle).cu.releaseDelay = some 60000
      ∧ (after .cuBalanceUpdate (s.putSetting .releaseLevel 1)).releaseHolds = false
      ∧ judged (after .cuRestoreEntry dark) ∧ judged (after .sharePeriodExpiry swap) ∧ swap.cu.swapPending = true
      ∧ s.cu.swapPending = false ∧ (after .cuBalanceUpdate (solar .watch .unheld none)).cu.state = .engaged := by decide +kernel
/-- While a release claim is outstanding the release delay's end leaves nothing waiting (log 66). -/
theorem test_release_waits_once : (after .releaseDelayExpiry (releasing (some .release))).cu.releaseWaiting = false
    ∧ (after .releaseDelayExpiry (releasing (some .raise))).cu.releaseWaiting = true := by decide +kernel
/-- Arrays 0 and 1 HELD at 50, a claim on both that is clipped within the second's part, and within the first's. -/
def arrays2 : State :=
  engaged.setArray 1 { definition := some { nameplate := 400, fallback := 0 }, state := holdOf 50 20 }
theorem meets_Release_claim : ([((0 : ArrayNo), 450), (1, 350)].map Prod.fst).Nodup
    ∧ (∀ a n, (a, n) ∈ [((0 : ArrayNo), 450), (1, 350)] →
        (arrays2.array a).isHeld = true ∧ (arrays2.array a).exposure + n ≤ (arrays2.array a).nameplate)
    ∧ arrays2.clipRaise 800 = 800 ∧ (less arrays2 451).clipRaise 800 = 598 ∧ (less arrays2 651).clipRaise 800 = 198
    ∧ (∃ a, (engaged.array a).definition ≠ none ∧ engaged.mayOrder a = true ∧ (engaged.array a).state ≠ .lapsed)
    ∧ (after (.releaseClaimAnswer true [0]) (releasing (some .release))).cu.state ≠ .engaged := by
  refine ⟨by decide, ?_, by decide +kernel, by decide +kernel, by decide +kernel, ⟨0, by decide +kernel⟩, by decide +kernel⟩
  intro a n h
  simp only [List.mem_cons, List.not_mem_nil, or_false, Prod.mk.injEq] at h
  rcases h with ⟨rfl, rfl⟩ | ⟨rfl, rfl⟩ <;> decide +kernel
/-- A clipped claim is handed out in the claim's order (R8, R128). -/
theorem test_claim_in_order :
    let t := after (.posting (.exposureRaise .release [(0, 450), (1, 350)])) (less arrays2 451)
    (t.array 0).claimed = some 500 ∧ (t.array 1).claimed = some 198 := by decide +kernel

/-! ### The island -/

/-- In RUN, RESTART and so on with the held bus DEAD. -/
def deadBus (st : IslandState) : State := isle (plant st) fun i => { i with heldLive := false }
def led (s : State) (l : List GensetNo) : State := isle s fun i => { i with leadOrder := l }
/-- Auto restart written on with the holdoff to be started, and with the bus LIVE or the holdoff running already. -/
theorem meets_Settings_restart : Setting.ofNumber 23 = some .autoRestart ∧ Setting.autoRestart.inRange 1 = true
    ∧ ((deadBus .dark).ic.state = .dark ∧ (deadBus .dark).ic.holdoff = none ∧ (deadBus .dark).ic.heldLive = false)
    ∧ (plant .dark).ic.heldLive = true ∧ (isle (deadBus .dark) fun i => { i with holdoff := some 1 }).ic.holdoff ≠ none := by
  decide +kernel
theorem meets_RunRestart : (plant .run).ic.state ≠ .setup ∧ (plant .setup).ic.state = .setup
    ∧ ((plant .setup).flc.pollList ≠ [] ∧ ((plant .setup).genset 0).profile ≠ none)
    ∧ (∀ g k p q, g ≠ k → ((plant .setup).genset g).profile = some p → ((plant .setup).genset k).profile = some q →
        p.merit ≠ q.merit)
    ∧ State.reset.flc.pollList = [] ∧ (plant .setup).ic.heldLive = true ∧ (deadBus .setup).ic.heldLive = false
    ∧ (plant .dark).ic.heldLive = true ∧ (deadBus .dark).ic.state = .dark ∧ (deadBus .dark).ic.leadOrder = []
    ∧ (led (deadBus .dark) [5, 0, 1, 2, 3, 4]).ic.leadOrder = 5 :: [0, 1, 2, 3, 4]
    ∧ (plant .restore).ic.state = .restore := by
  refine ⟨by decide +kernel, by decide +kernel, by decide +kernel, ?_, by decide +kernel⟩
  have h : ∀ g k : GensetNo, g ≠ k → (((plant .setup).genset g).profile.map (·.merit)) ≠ none →
      (((plant .setup).genset g).profile.map (·.merit)) ≠ (((plant .setup).genset k).profile.map (·.merit)) := by
    decide +kernel
  intro g k p q n e e' m
  have := h g k n
  rw [e, e'] at this
  exact this (by simp) (by simp [m])
theorem meets_Lists : walking.ic.restoreList.length = 2 ∧ (plant .run).ic.restoreList.length < 1
    ∧ (∃ e ∈ walking.ic.restoreList.take 0 ++ walking.ic.restoreList.drop 1, e.feeder = 1)
    ∧ (∀ e ∈ walking.ic.restoreList.take 0 ++ walking.ic.restoreList.drop 1, e.feeder ≠ 0)
    ∧ (∃ n ∈ [5, 6], 6 ≤ n) ∧ 6 < [0, 1, 2, 3, 4, 5, 5].length ∧ [0, 1, 2, 3, 4, 5].length ≤ 6
    ∧ ([0, 1, 2, 3, 4, 5] : List GensetNo).Nodup ∧ ¬ ([5, 5] : List GensetNo).Nodup
    ∧ (plant .restart).ic.state = .restart ∧ (plant .dark).active = false
    ∧ (plant .run).ic.standDown = false ∧ (standing (plant .run)).ic.standDown = true
    ∧ (standing (plant .restore)).ic.state = .restore := by decide +kernel
/-- RESUME: an entry to be asked for, an entry ended or settled in the pause, and a walk with nothing to do. -/
theorem meets_Resume_walk :
    let e : RestoreEntry := { feeder := 0, pickup := 0, settle := 0 }
    let walks (s : State) : Prop := s.ic.standDown = true ∧ s.ic.state = .restore ∧ s.se.state = .idle
    (walks (standing walking) ∧ (standing walking).ic.walkPhase = some .next
        ∧ (standing walking).ic.restoreList[(standing walking).ic.walkPointer]? = some e
        ∧ (standing walking).contactOf (.feeder 0) = .inContact ∧ (standing walking).asked e ≠ 0
        ∧ ((standing walking).feeder 0).lockout = false ∧ (standing walking).permitOf 0 = none)
      ∧ (walks (standing (isle walking fun i => { i with walkPhase := some .waitGrant, walkPermit := none }))
        ∧ walks (standing (isle walking fun i => { i with walkPhase := some .settle, settle := some 0 })))
      ∧ (standing (plant .run)).ic.state ≠ .restore := by decide +kernel
/-- RESUME: a head of the Wait Queue that fits and one that does not, a release, a candidate, and both lanes taken. -/
theorem meets_Resume_served :
    let head (kw : Nat) : State := standing (less (withReservation .queued) kw)
    ((head 0).ae.candidate = none ∧ (head 0).ic.state = .run ∧ (head 0).ae.waitQueue = 0 :: []
        ∧ ((head 0).permit 0).requested = 100 ∧ (head 650).headroom = 100 ∧ (head 651).headroom = 99)
      ∧ (let s := standing (withFeeder .staging 0)
        s.ae.candidate = none ∧ s.ae.waitQueue = [] ∧ s.ae.stepGuard = none ∧ s.ae.inFlight = none ∧ 0 ≤ s.headroom
          ∧ 0 < s.stepAcceptance ∧ (s.took .resume).releaseTarget = some 0 ∧ (s.permit 0).holder = some (.feeder 0))
      ∧ (let s := standing shedLong
        s.ae.candidate = none ∧ s.active = true ∧ s.se.state = .idle ∧ s.se.naming = none ∧ s.restoreCandidate = some 0
          ∧ ((s.permit 0).requested + s.setting .restoreMargin : Int) ≤ s.headroom)
      ∧ (standing (full (plant .run))).gs.laneA ≠ none ∧ (standing (full (plant .run))).gs.laneB ≠ none
      ∧ (standing (full (plant .run))).ae.waitQueue = [] := by decide +kernel
theorem exact_standing : (standing (less (withReservation .queued) 0)).listsExact
    ∧ (standing (less (withReservation .queued) 651)).listsExact := by
  constructor <;> exact listsExact_of (by decide +kernel)
theorem meets_BusEvents : State.reset.ic.deadConfirm = none ∧ State.reset.ic.liveConfirm = none
    ∧ State.reset.ic.holdoff = none
    ∧ (∀ st, (isle (plant st) fun i => { i with deadConfirm := some 0 }).ic.deadConfirm ≠ none
      ∧ (isle (plant st) fun i => { i with deadConfirm := some 0 }).ic.state = st
      ∧ (isle (deadBus st) fun i => { i with liveConfirm := some 0 }).ic.liveConfirm ≠ none
      ∧ (isle (deadBus st) fun i => { i with liveConfirm := some 0 }).ic.state = st)
    ∧ (isle (plant .restart) fun i => { i with decision := some {} }).ic.decision ≠ none
    ∧ ((led (deadBus .dark) [1]).ic.state = .dark ∧ ((led (deadBus .dark) [1]).putSetting .autoRestart 1).setting .autoRestart = 1
      ∧ (led (deadBus .dark) [1]).ic.suspended = false ∧ (led (deadBus .dark) [1]).ic.heldLive = false
      ∧ (led (deadBus .dark) [1]).ic.leadOrder = 1 :: []) := by
  refine ⟨by decide, by decide, by decide, ?_, by decide +kernel, by decide +kernel⟩
  intro st
  cases st <;> decide +kernel
/-- In RESTART with lead 1 asked for, one more in the order. -/
def leading (decision : Option LiveDecision) (index : Nat) : State :=
  isle (led (plant .restart) [1, 0]) fun i => { i with lead := some 1, leadIndex := index, decision := decision }
theorem meets_LeadOutcomes : (plant .restart).ic.lead ≠ some 1 ∧ (leading none 0).ic.state = .restart
    ∧ (leading none 0).ic.lead = some 1 ∧ (leading none 0).ic.decision = none
    ∧ (leading none 0).ic.leadOrder[(leading none 0).ic.leadIndex + 1]? = some 0
    ∧ (leading none 1).ic.leadOrder[(leading none 1).ic.leadIndex + 1]? = none
    ∧ (leading (some {}) 0).ic.decision = some {}
    ∧ (leading (some { adoption := some true }) 0).ic.decision = some { adoption := some true }
    ∧ (leading (some { lead := some false }) 0).ic.decision = some { lead := some false }
    ∧ (plant .dark).ic.state = .dark ∧ (plant .dark).ic.heldLive = true ∧ (plant .dark).ic.foreignLive = false
    ∧ (deadBus .dark).ic.heldLive = false := by decide +kernel
/-- The walk at an entry, in a phase. -/
def walkAt (p : WalkPhase) (k : Nat) (permit : Option Handle) (settle : Timer) : State :=
  isle walking fun i => { i with walkPhase := some p, walkPointer := k, walkPermit := permit, settle := settle }
theorem exact_walking : walking.listsExact := listsExact_of (by decide +kernel)
theorem meets_WalkPermits : walking.seHolds 0 = false ∧ walking.permitOf 0 = none ∧ walking.freeSlot = some 0 ∧ walking.headroom = 750
    ∧ (holding walking 0 (feederPermit .granted 200)).permitOf 0 ≠ none
    ∧ (walking.ic.state = .restore ∧ walking.ic.walkPhase = some .next)
    ∧ (walkAt .waitFit 1 none none).ic.walkPhase = some .waitFit
    ∧ walking.ic.restoreList[walking.ic.walkPointer]? = some { feeder := 0, pickup := 0, settle := 0 }
    ∧ (walkAt .next 2 none none).ic.restoreList[(walkAt .next 2 none none).ic.walkPointer]? = none
    ∧ ((walkAt .waitGrant 0 (some ⟨0, 1⟩) none).ic.walkPhase = some .waitGrant
      ∧ (walkAt .waitGrant 0 (some ⟨0, 1⟩) none).ic.walkPermit = some ⟨0, 1⟩)
    ∧ (walkAt .waitGrant 1 (some ⟨0, 1⟩) none).ic.restoreList[1]? = some { feeder := 1, pickup := 750, settle := 600 }
    ∧ (standing walking).paused = true ∧ walking.paused = false := by decide +kernel
/-- The walk's answers: what is awaited, and not; the kW at the ends of a need's range and out of it. -/
theorem meets_WalkPermits_answers :
    (walking.ic.state = .restore ∧ walking.ic.walkPhase = some .next
      ∧ ∃ e, walking.ic.restoreList[walking.ic.walkPointer]? = some e ∧ e.feeder = 0)
    ∧ (∀ e, walking.ic.restoreList[walking.ic.walkPointer]? = some e → e.feeder ≠ 1)
    ∧ ((walkAt .waitFit 0 none none).ic.walkPhase = some .waitFit
      ∧ ∃ e, (walkAt .waitFit 0 none none).ic.restoreList[(walkAt .waitFit 0 none none).ic.walkPointer]? = some e ∧ e.feeder = 0)
    ∧ (1 ≤ 1 ∧ 16000 ≤ 16000 ∧ 16000 < 16001) ∧ (1 ≤ 750 ∧ ((751 : Nat) : Int) > walking.headroom) := by
  refine ⟨⟨rfl, rfl, ⟨_, rfl, rfl⟩⟩, ?_, ⟨rfl, ⟨_, rfl, rfl⟩⟩, by decide, by decide +kernel⟩
  intro e h
  cases h
  decide
theorem meets_WalkGoesOn : walking.ic.settle = none ∧ (walkAt .settle 0 none (some 0)).ic.settle ≠ none
    ∧ (walkAt .settle 0 none (some 0)).paused = false ∧ (standing (walkAt .settle 0 none (some 0))).paused = true
    ∧ (walkAt .waitFit 0 none none).ic.state = .restore
    ∧ ¬ (walking.passedOver { feeder := 0, pickup := 0, settle := 0 })
    ∧ walking.permitOf 0 = none
    ∧ (walking.setFeeder 0 { walking.feeder 0 with lockout := true }).passedOver { feeder := 0, pickup := 0, settle := 0 }
    ∧ (walkAt .waitGrant 0 none none).ic.walkPermit = none
    ∧ (walkAt .settle 0 none (some 1)).ic.settle ≠ some 0
    ∧ (walkAt .settle 0 none (some 0)).ic.settle = some 0 := by
  refine ⟨by decide +kernel, by decide +kernel, by decide +kernel, by decide +kernel, by decide +kernel, ?_,
    by decide +kernel, Or.inl (by decide +kernel), by decide +kernel⟩
  rintro (h | h | h)
  · exact absurd h (by decide +kernel)
  · exact h (by decide +kernel)
  · exact absurd h (by decide +kernel)

/-- The entry's feeder holds a permit already: GRANTED with a settle delay and with none, STAGING, and another state. -/
theorem meets_WalkGoesOn_permit :
    let holder (st : PermitState) : State := holding (walkAt .waitFit 0 none none) 0 (feederPermit st 200)
    let settling : State := isle (holder .granted) fun i => { i with
      restoreList := [{ feeder := 0, pickup := 0, settle := 600 }] }
    (∀ st ∈ [PermitState.granted, .staging, .unverified, .shed], (holder st).permitOf 0 = some 0
        ∧ ((holder st).permit 0).state = st ∧ (holder st).paused = false ∧ (holder st).ic.walkPhase = some .waitFit
        ∧ (holder st).ic.state = .restore
        ∧ (holder st).ic.restoreList[(holder st).ic.walkPointer]? = some { feeder := 0, pickup := 0, settle := 0 }
        ∧ ((holder st).feeder 0).lockout = false ∧ (holder st).contactOf (.feeder 0) = .inContact
        ∧ (holder st).asked { feeder := 0, pickup := 0, settle := 0 } = 100)
      ∧ settling.ic.restoreList[settling.ic.walkPointer]? = some { feeder := 0, pickup := 0, settle := 600 }
      ∧ settling.permitOf 0 = some 0 ∧ (settling.permit 0).state = .granted := by decide +kernel

/-! ### The loop -/

/-- The loop in a state, with orders in the slots of addresses 1 and 2. -/
def order (urgent : Bool) (n : Nat) : SlotOrder :=
  { order := .open_ none, owner := .se, urgent := urgent, number := n, attempts := 0 }
def looping (l : Loop) : State :=
  let s := (plant .run).setEntry 0 { (plant .run).entry 0 with slot := some (order true 1) }
  let s := s.setEntry 1 { s.entry 1 with slot := some (order false 2), missed := 2 }
  { s with flc := { s.flc with loop := l, urgent := [0] } }
def turnTo (u : Addr) (discard : Bool) : Turn :=
  { addr := u, urgent := false, sent := some (order false 2), discard := discard, baud := 19200 }
/-- Stand-down complete in RUN. -/
def complete : State := isle (standing (plant .run)) fun i => { i with complete := true }
theorem meets_Directory : (plant .setup).ic.state = .setup ∧ (complete.active = true ∧ complete.ic.complete = true)
    ∧ ¬ ((plant .run).ic.state = .setup ∨ ((plant .run).active = true ∧ (plant .run).ic.complete = true))
    ∧ (1 = (0 : Addr).val + 1 ∧ 32 = (31 : Addr).val + 1)
    ∧ ((plant .setup).entry 0).bound = some (.feeder 0) ∧ ((plant .setup).entry 31).bound = none
    ∧ (plant .setup).addrOf (.feeder 0) ≠ none ∧ (plant .setup).addrOf (.feeder 23) = none
    ∧ (plant .setup).addrOf (.genset 5) = none ∧ (plant .setup).addrOf (.array 7) = none
    ∧ (List.replicate 48 (0 : Addr)).length ≤ 48 ∧ (∀ u, ([0, 0, 0, 0] : List Addr).count u ≤ 4)
    ∧ ¬ (∀ u, ([0, 0, 0, 0, 0] : List Addr).count u ≤ 4) ∧ complete.flc.loop = .idle
    ∧ (looping (.gap 1)).flc.loop ≠ .idle ∧ 48 < (List.replicate 49 1).length ∧ (∃ a ∈ [33], a = 0 ∨ 32 < a) := by
  decide +kernel
/-- SET UNIT while a turn to the address is under way, its slot holding an order, and while one to another address is. -/
theorem meets_Directory_turn :
    let s (l : Loop) : State := isle (looping l) fun i => { i with state := .setup }
    (s .idle).ic.state = .setup ∧ ((s .idle).entry 1).bound = some (.feeder 1) ∧ ((s .idle).entry 1).slot = some (order false 2)
      ∧ (s (.sending (turnTo 1 false) [])).flc.loop = .sending (turnTo 1 false) []
      ∧ (s (.awaiting (turnTo 1 false) 5)).flc.loop = .awaiting (turnTo 1 false) 5
      ∧ (s (.receiving (turnTo 0 false))).flc.loop = .receiving (turnTo 0 false)
      ∧ (s (.gap 3)).flc.loop = .gap 3 := by decide +kernel
/-- An IDLE loop that an edit wakes: to an urgent turn, to a poll turn, and to none where every entry is VACANT. -/
theorem meets_Directory_idle :
    let s (urgent l : List Addr) : State :=
      { plant .setup with flc := { (plant .setup).flc with urgent := urgent, pollList := l, loop := .idle } }
    let bound (urgent l : List Addr) : State := after (.setUnit 32 1 23) (s urgent l)
    ((s [0] [1]).entry 31).bound = none ∧ (s [0] [1]).addrOf (.feeder 23) = none
      ∧ ((bound [0] [1]).flc.urgent = [0] ∧ (bound [0] [1]).flc.loop ≠ .idle)
      ∧ ((bound [] [30, 31]).flc.urgent = [] ∧ (bound [] [30, 31]).flc.pollList[(0 + 1) % 2]? = some 31
        ∧ ((bound [] [30, 31]).entry 31).bound ≠ none ∧ ((bound [] [30, 31]).entry 30).bound = none
        ∧ (bound [] [30, 31]).flc.cursor = 0)
      ∧ ((bound [] [30]).flc.loop = .idle ∧ (∀ v ∈ [(30 : Addr)], ((bound [] [30]).entry v).bound = none))
      ∧ (after (.setPollList [31, 1]) (s [] [])).flc.loop ≠ .idle := by decide +kernel
/-- A placement in a feeder's slot. -/
def placing (f : FeederNo) (urgent : Bool) (owner : Block) : Placement :=
  { target := .feeder f, order := .open_ none, owner := owner, urgent := urgent }
theorem meets_Placements : (plant .run).addrOf (placing 23 true .se).target = none
    ∧ (looping .idle).addrOf (placing 1 true .se).target = some 1 ∧ ((looping .idle).entry 1).contact ≠ .lost
    ∧ ((plant .run).entry 1).slot = none ∧ ((looping .idle).entry 1).slot = some (order false 2)
    ∧ (looping (.gap 1)).flc.loop ≠ .idle ∧ (looping .idle).flc.loop = .idle
    ∧ ((plant .run).setEntry 1 { (plant .run).entry 1 with contact := .lost }).contactOf (.feeder 1) = .lost
    ∧ ((looping .idle).slotOf (.feeder 1) = some (order false 2) ∧ (order false 2).order.kind = .open_)
    ∧ (order false 2).order.kind ≠ .grant := by decide +kernel
/-- Two VACANT addresses ahead of a bound one in the poll list. -/
def vacancies (cursor : Nat) (l : List Addr) : State :=
  { plant .run with flc := { (plant .run).flc with pollList := l, cursor := cursor, loop := .gap 0 } }
theorem meets_Turns : (looping (.gap 0)).flc.loop = .gap 0 ∧ (looping (.gap 0)).flc.urgent = 0 :: []
    ∧ (vacancies 1 [4, 30, 31]).flc.urgent = [] ∧ (vacancies 1 [4, 30, 31]).flc.cursor < 3
    ∧ (∀ j < 2, ∀ v, (vacancies 1 [4, 30, 31]).flc.pollList[(1 + j) % 3]? = some v → ((vacancies 1 [4, 30, 31]).entry v).bound = none)
    ∧ (vacancies 1 [4, 30, 31]).flc.pollList[(1 + 2) % 3]? = some 4 ∧ ((vacancies 1 [4, 30, 31]).entry 4).bound ≠ none
    ∧ (∀ v ∈ (vacancies 0 [30, 31]).flc.pollList, ((vacancies 0 [30, 31]).entry v).bound = none)
    ∧ (vacancies 0 []).flc.pollList.length = 0
    ∧ (looping (.sending (turnTo 1 false) [])).flc.loop = .sending (turnTo 1 false) []
    ∧ (looping (.awaiting (turnTo 1 false) 0)).flc.loop = .awaiting (turnTo 1 false) 0
    ∧ (looping (.receiving (turnTo 1 false))).flc.loop = .receiving (turnTo 1 false)
    ∧ (turnTo 1 false).discard = false ∧ ((looping .idle).entry 1).bound = some (.feeder 1)
    ∧ (((looping .idle).entry 1).missed + 1 = (looping .idle).setting .missedLimit
      ∧ ((looping .idle).entry 0).missed + 1 < (looping .idle).setting .missedLimit) := by decide +kernel
/-- A turn whose REPLY is to be discarded, at the end of its window and of its reception; and a turn to a VACANT address. -/
theorem meets_Turns_discarded : (looping (.awaiting (turnTo 1 true) 0)).flc.loop = .awaiting (turnTo 1 true) 0
    ∧ (looping (.receiving (turnTo 1 true))).flc.loop = .receiving (turnTo 1 true) ∧ (turnTo 1 true).discard = true
    ∧ ((looping .idle).entry 31).bound = none := by decide +kernel
/-- A REPLY of feeder 1 that answers order 2: kind 01h, marks 01h, breaker OPEN, no LOCAL, no draw; then number, ACCEPTED, no
reason. -/
def openReply : List Byte := loopFrame 1 0x73 [1, 1, 0, 0, 0, 0, 2, 0, 0]
theorem meets_Replies : (looping (.receiving (turnTo 1 false))).flc.loop = .receiving (turnTo 1 false)
    ∧ (looping (.receiving (turnTo 1 true))).flc.loop = .receiving (turnTo 1 true) ∧ (turnTo 1 true).discard = true
    ∧ ((looping .idle).entry 1).bound = some (.feeder 1)
    ∧ readReply 1 (.feeder 1) (turnTo 1 false).sent openReply
      = some { report := [0, 0, 0, 0], answer := some true, claim := none }
    ∧ readReply 1 (.feeder 1) (turnTo 1 false).sent (openReply.take 13) = none
    ∧ readReply 0 (.feeder 1) (turnTo 1 false).sent openReply = none
    ∧ (∃ o w, ((looping .idle).entry 1).slot = some o ∧ (turnTo 1 false).sent = some w ∧ o.number = w.number)
    ∧ ((plant .run).entry 1).slot = none := by
  refine ⟨by decide +kernel, by decide +kernel, by decide +kernel, by decide +kernel, by decide +kernel, by decide +kernel,
    by decide +kernel, ⟨order false 2, order false 2, by decide +kernel, rfl, rfl⟩, by decide +kernel⟩

/-- Payloads that fail one test of R166 each, and reports of each length with their marks. -/
theorem meets_Replies_payload :
    let sent : Option SlotOrder := some (order false 2)
    let r : UnitRec := .feeder 1
    readPayload r sent [2, 1, 0, 0, 0, 0, 2, 0, 0] = none ∧ readPayload r sent [1, 0, 0, 0, 0, 0] = none
      ∧ readPayload r none [1, 1, 0, 0, 0, 0, 2, 0, 0] = none ∧ readPayload r sent [1, 1, 0, 0, 0, 0, 3, 0, 0] = none
      ∧ readPayload (.array 1) none [3, 2, 0, 0, 2, 0, 1] = none ∧ readPayload r sent [1, 1, 0, 0, 0, 0, 2, 0] = none
      ∧ readPayload r sent [1, 1, 0, 0, 0, 0, 2, 0, 0, 0] = none
      ∧ readPayload r none [1, 2, 0, 0, 0, 0, 2, 0] = none ∧ readPayload r none [1, 2, 0, 0, 0, 0, 3, 0, 1] = none
      ∧ readPayload r none [1, 2, 0, 0, 0, 0, 2, 0, 1] ≠ none
      ∧ ([0, 0, 0, 0] : List Byte).length = reportLength r ∧ ([0, 0, 0] : List Byte).length = reportLength (.genset 0)
      ∧ ([0, 0] : List Byte).length = reportLength (.array 7) ∧ (3 : Byte).getLsbD 0 = true ∧ (3 : Byte).getLsbD 1 = true
      ∧ (0 : Byte).getLsbD 0 = false ∧ (0 : Byte).getLsbD 1 = false
      ∧ openReply = loopFrame 1 0x73 ((openReply.drop 3).take (openReply.length - 5))
      ∧ openReply.take 13 ≠ loopFrame 1 0x73 (((openReply.take 13).drop 3).take 8) := by decide +kernel

/-- An urgent slot at address 1 of the loop, named by the Urgent List. -/
theorem meets_StepKeepsTheUrgent : (looping (.gap 0)).urgentExact ∧ (looping .idle).urgentExact
    ∧ (looping (.gap 0)).ordersOwned
    ∧ (let s := granted (withFeeder .granted 200)
      ({ s with pending := [.orderPlacement (placing 0 true .se)] } : State).ordersOwned)
    ∧ ∃ t, step (looping (.gap 0)) = .next t :=
  ⟨⟨by decide +kernel, by decide +kernel⟩, ⟨by decide +kernel, by decide +kernel⟩, ordersOwned_of (by decide +kernel),
    ordersOwned_of (by decide +kernel), next_of (by decide +kernel)⟩

/-! ## One step -/

theorem test_reserve_fits : (after (.reserve 750 0 true none) (plant .run)).sp.held.payload = [0, 1, 3]
    ∧ (after (.reserve 750 0 true none) (plant .run)).headroom = 0 := by decide +kernel
theorem test_reserve_waits : (after (.reserve 751 0 true none) (plant .run)).sp.held.payload = [0, 1, 1]
    ∧ (after (.reserve 751 0 true none) (plant .run)).ae.waitQueue = [0] := by decide +kernel
theorem test_retire_reservation : ((after (.retire ⟨0, 1⟩) (withReservation .granted)).permit 0).gen = 2
    ∧ (after (.retire ⟨0, 1⟩) (withReservation .granted)).headroom = 750 := by decide +kernel
theorem test_shedNow : ((after (.shedNow ⟨0, 1⟩) (withFeeder .granted 200)).permit 0).state = .revoking
    ∧ (after (.shedNow ⟨0, 1⟩) (withFeeder .granted 200)).slotView (.feeder 0) = some (.open_ (some ⟨0, 1⟩), .se) := by decide +kernel
/-- The ladder's revocation is confirmed by a report of the breaker OPEN (R61). -/
theorem test_shed_confirmed : ((after (.aeReplyDelivery (reported false 0)) (withFeeder .revoking 200)).permit 0).state = .shed
    ∧ (after (.aeReplyDelivery (reported false 0)) (withFeeder .revoking 200)).se.shedList = [0] := by decide +kernel
/-- A loss of headroom takes the ladder (R57). -/
theorem test_shortfall_sheds : (after .seBalanceUpdate short).se.state = .shedding
    ∧ ((after .seBalanceUpdate short).permit 0).revokeReason = some .ladder := by decide +kernel
theorem test_restored : ((after (.shedListCandidateNamed ⟨0, 1⟩) naming).permit 0).state = .staging
    ∧ (after (.shedListCandidateNamed ⟨0, 1⟩) naming).ae.releaseList = [0] := by decide +kernel
theorem test_release_made : (after .aeBalanceUpdate (withFeeder .staging 0)).ae.inFlight
      = some { handle := ⟨0, 1⟩, feeder := 0, kw := 200 } := by decide +kernel
/-- A confirming GRANT answered after an ADJUST has cut the released kW changes no record (R39); a release GRANT counts (R37). -/
theorem test_confirming_answer : ∀ yes, let t := after (.aeReplyDelivery (confirming 200 yes)) (withFeeder .staging 100)
    (t.permit 0).released = 100 ∧ t.ae.stepGuard = none := by decide +kernel
theorem test_release_answer :
    let t := after (.aeReplyDelivery (granting .inContact ⟨0, 1⟩ 200 true true)) (withFeeder .staging 100)
    (t.permit 0).released = 200 ∧ (t.permit 0).state = .granted ∧ t.ae.stepGuard = some 2000 := by decide +kernel
theorem test_queue_full :
    .noticeRaise .queueRefusal ∈ (after (.reserve 1 3 true none) (crowd 16 (small .queued) true)).events := by decide +kernel
theorem test_stop_abandons_delay : (after (.stop 1 true) overpowered).gs.stopDelay = none := by decide +kernel
theorem test_start : ((after (.start 1) readied).genset 1).state = .starting
    ∧ ((after (.start 1) readied).gs.laneA.bind (·.stepTimer)) = some 1000 := by decide +kernel
theorem test_stop : ((after (.stop 0 true) (plant .run)).genset 0).phase = some .unloading
    ∧ (after (.stop 0 true) (plant .run)).onlineCapacity = 0 := by decide +kernel
theorem test_trip : ((after (.gsReplyDelivery (measured { tripped := true })) (plant .run)).genset 0).state = .off
    ∧ (after (.gsReplyDelivery (measured { tripped := true })) (plant .run)).headroom = -250 := by decide +kernel
theorem test_target : ((after .cuBalanceUpdate engaged).array 0).target = some (.kw 150) := by decide +kernel
theorem test_quantum : ((after (.holdQuantum 0) engaged).array 0).state
      = .held { cap := 50, remaining := 19, length := 40, quantum := 250 }
    ∧ ((after (.holdQuantum 0) engaged).array 0).ordered = some (.kw 50) := by decide +kernel
theorem test_lapse : ((after (.holdLapse 0) engaged).array 0).state = .lapsed
    ∧ (after (.holdLapse 0) engaged).exposure = 100 := by decide +kernel
theorem test_run : (after .run (plant .setup)).ic.state = .run ∧ (after .run (plant .setup)).sp.held.payload = [1]
    ∧ (after .run (deadBus .setup)).ic.state = .dark := by decide +kernel
theorem test_dead_bus : (after .deadBusConfirmation (isle (plant .run) fun i => { i with deadConfirm := some 0 })).ic.state
      = .dark := by decide +kernel
theorem test_lead_online : (after (.leadOutcome (.online 1)) (leading none 0)).ic.state = .run := by decide +kernel
theorem test_walk_asks : (after (.seIdleTelling true) walking).events = [.walkPermitRequest 0 100] := by decide +kernel
theorem test_request_taken :
    (after (.transactionEnd (requestFrame 0x01 [1, 31])) (shifting false)).events = [.lookUp 1 31]
    ∧ (after (.transactionEnd (requestFrame 0x01 [1, 31])) (shifting false)).ready = false := by decide +kernel
theorem test_reply_valid : ((after (.replyReceived openReply) (looping (.receiving (turnTo 1 false)))).entry 1).slot = none
    ∧ (after (.replyReceived openReply) (looping (.receiving (turnTo 1 false)))).flc.loop = .gap 2 := by decide +kernel
theorem test_unit_lost : ((after .replyWindowExpiry (looping (.awaiting (turnTo 1 false) 0))).entry 1).contact = .lost
    := by decide +kernel

end Sys2Proof.Tests
end

/-! # The reserve account: the figures and their rules (R2, R3, R4) -/

namespace Sys2Proof.Machine

/-! ## The reserve requirement and the ceiling -/

/-- Hundredths rounded up to whole kilowatts gain fewer than 100 hundredths. -/
theorem hundred_mul_roundedUp (hundredths : Nat) :
    ∃ part < 100, 100 * ((hundredths + 99) / 100) = hundredths + part :=
  ⟨100 * ((hundredths + 99) / 100) - hundredths, by omega, by omega⟩

/-- Only the cloud factor's share is rounded: the base reserve is whole kilowatts (R2). -/
theorem State.reserveRequirement_roundsUp (s : State) :
    ∃ part : Nat, part < 100 ∧
      100 * s.reserveRequirement = 100 * s.setting .baseReserve + s.setting .cloudFactor * s.exposure + part := by
  obtain ⟨part, small, rounded⟩ := hundred_mul_roundedUp (s.setting .cloudFactor * s.exposure)
  exact ⟨part, small, by rw [State.reserveRequirement, Nat.mul_add, rounded, Nat.add_assoc]⟩

/-- The subtraction of the ceiling stops at 0 as R3 asks. -/
theorem State.ceiling_eq_max (s : State) :
    (s.ceiling : Int) = max 0 ((s.measuredLoad : Int) - s.minimumLoad - s.setting .floorMargin) := by
  unfold State.ceiling Kw
  omega

/-! ## Capacity wanted -/

/-- The kW by which a need exceeds headroom; an absent need asks for nothing (R4). -/
def State.needShort (s : State) (need : Option Kw) : Int := need.elim 0 (fun n => (n : Int) - s.headroom)

@[simp] theorem State.needShort_none (s : State) : s.needShort none = 0 := rfl
@[simp] theorem State.needShort_some (s : State) (n : Kw) : s.needShort (some n) = n - s.headroom := rfl

/-- The kW by which the start level exceeds headroom (R4). -/
def State.startShort (s : State) : Int := s.setting .startLevel - s.headroom

/-- The greatest of the four is never below 0, so that as a number of kW it is still the greatest. -/
theorem State.capacityWanted_eq_max (s : State) :
    (s.capacityWanted : Int) = max (max 0 s.startShort) (max (s.needShort s.needs.ae) (s.needShort s.needs.ic)) :=
  Int.toNat_of_nonneg (le_max_of_le_left (le_max_left 0 _))

theorem State.startShort_le_capacityWanted (s : State) : s.startShort ≤ s.capacityWanted := by
  simp [State.capacityWanted_eq_max]

theorem State.aeShort_le_capacityWanted (s : State) : s.needShort s.needs.ae ≤ s.capacityWanted := by
  simp [State.capacityWanted_eq_max]

theorem State.icShort_le_capacityWanted (s : State) : s.needShort s.needs.ic ≤ s.capacityWanted := by
  simp [State.capacityWanted_eq_max]

/-- Capacity wanted is one of the four figures it is the greatest of. -/
theorem State.capacityWanted_cases (s : State) :
    (s.capacityWanted : Int) = 0 ∨ (s.capacityWanted : Int) = s.startShort
      ∨ (s.capacityWanted : Int) = s.needShort s.needs.ae ∨ (s.capacityWanted : Int) = s.needShort s.needs.ic := by
  rw [s.capacityWanted_eq_max]
  omega

/-- What a need asks for is 0 where it is absent, and otherwise the present need less headroom. -/
theorem State.needShort_cases (s : State) (need : Option Kw) :
    s.needShort need = 0 ∨ ∃ n, need = some n ∧ s.needShort need = n - s.headroom := by
  cases need with
  | none => exact .inl rfl
  | some n => exact .inr ⟨n, rfl, rfl⟩

/-- Settles O15: each figure by its own rule (R2, R3); capacity wanted is one of R4's quantities, and bounds each. -/
theorem accountFiguresFollowTheirRules : Obligations.AccountFiguresFollowTheirRules := by
  intro s
  refine ⟨s.reserveRequirement_roundsUp, rfl, s.ceiling_eq_max, ?attained, ?greatest⟩
  case attained =>
    obtain zero | start | ae | ic := s.capacityWanted_cases
    · exact .inl zero
    · exact .inr (.inl start)
    · obtain absent | ⟨n, present, short⟩ := s.needShort_cases s.needs.ae
      · exact .inl (ae.trans absent)
      · exact .inr (.inr (.inl ⟨n, present, ae.trans short⟩))
    · obtain absent | ⟨n, present, short⟩ := s.needShort_cases s.needs.ic
      · exact .inl (ic.trans absent)
      · exact .inr (.inr (.inr ⟨n, present, ic.trans short⟩))
  case greatest =>
    rintro q (rfl | rfl | ⟨n, present, rfl⟩ | ⟨n, present, rfl⟩)
    · exact Int.natCast_nonneg _
    · exact s.startShort_le_capacityWanted
    · simpa [present] using s.aeShort_le_capacityWanted
    · simpa [present] using s.icShort_le_capacityWanted

end Sys2Proof.Machine

/-! # The feeder commands: SET FEEDER and RESET ROTATION (R52, R55, R68) -/

namespace Sys2Proof.Machine

/-! ## A number as an index -/

theorem index?_val {n : Nat} (i : Fin n) : index? n i.val = some i := dif_pos i.isLt

theorem index?_of_le {n k : Nat} (beyond : n ≤ k) : index? n k = none := dif_neg (by omega)

/-! ## The judgement of the restore candidate (R68) -/

/-- Where the SE judges the restore candidate at all (R68). -/
def State.judgesCandidate (s : State) : Prop :=
  s.active = true ∧ s.ic.standDown = false ∧ s.se.state = .idle ∧ s.se.naming = none

/-- The headroom that naming a SHED permit asks for (R68). -/
def State.restoreNeed (s : State) (k : Slot) : Int := (s.permit k).requested + s.setting .restoreMargin

/-- The SE's naming of a SHED permit to the AE. -/
def State.withNamed (s : State) (h : Handle) : State :=
  { s with
    se := { s.se with naming := some h }
    ae := { s.ae with candidate := some h }
    events := s.events ++ [.shedListCandidateNamed h] }

theorem State.judgeCandidate_names {s : State} {k : Slot} (judging : s.judgesCandidate)
    (first : s.restoreCandidate = some k) (covered : s.restoreNeed k ≤ s.headroom) :
    s.judgeCandidate = s.withNamed (s.handleOf k) := by
  have fits : (((s.permit k).requested + s.setting .restoreMargin : Nat) : Int) ≤ s.headroom := covered
  simp only [State.judgeCandidate, first, if_pos fits]
  exact if_pos judging

theorem State.judgeCandidate_of_not_judging {s : State} (resting : ¬ s.judgesCandidate) : s.judgeCandidate = s :=
  if_neg resting

theorem State.judgeCandidate_of_no_candidate {s : State} (nothing : s.restoreCandidate = none) : s.judgeCandidate = s := by
  simp only [State.judgeCandidate, nothing, ite_self]

theorem State.judgeCandidate_of_short {s : State} {k : Slot} (first : s.restoreCandidate = some k)
    (short : s.headroom < s.restoreNeed k) : s.judgeCandidate = s := by
  have unfit : ¬ (((s.permit k).requested + s.setting .restoreMargin : Nat) : Int) ≤ s.headroom := not_le.mpr short
  simp only [State.judgeCandidate, first, if_neg unfit, ite_self]

/-- The judgement names the restore candidate or changes nothing. -/
theorem State.judgeCandidate_cases (s : State) :
    s.judgeCandidate = s ∨ ∃ k, s.judgeCandidate = s.withNamed (s.handleOf k) := by
  by_cases judging : s.judgesCandidate
  case neg => exact .inl (State.judgeCandidate_of_not_judging judging)
  case pos =>
    cases first : s.restoreCandidate with
    | none => exact .inl (State.judgeCandidate_of_no_candidate first)
    | some k =>
      obtain covered | short := le_or_gt (s.restoreNeed k) s.headroom
      · exact .inr ⟨k, State.judgeCandidate_names judging first covered⟩
      · exact .inl (State.judgeCandidate_of_short first short)

@[simp] theorem State.judgeCandidate_feeders (s : State) : s.judgeCandidate.se.feeders = s.se.feeders := by
  obtain same | ⟨k, named⟩ := s.judgeCandidate_cases
  · rw [same]
  · rw [named]; rfl

@[simp] theorem State.feeder_judgeCandidate (s : State) (f : FeederNo) : s.judgeCandidate.feeder f = s.feeder f := by
  simp only [State.feeder, State.judgeCandidate_feeders]

/-! ## SET FEEDER (R52) -/

theorem State.cmdSetFeeder_refused {feeder cls pickup : Nat} (lockout : Bool) (s : State)
    (out : 24 ≤ feeder ∨ 3 < cls ∨ 16000 < pickup) :
    s.cmdSetFeeder feeder cls pickup lockout = refuse .outOfRange s := by
  obtain beyond | out := out
  · simp only [State.cmdSetFeeder, index?_of_le beyond]
  · unfold State.cmdSetFeeder
    cases index? 24 feeder with
    | none => rfl
    | some f => exact if_pos out

/-- The state with the record as SET FEEDER writes it, before a cleared lockout is judged and the reply is held. -/
def State.feederWritten (s : State) (f : FeederNo) (cls pickup : Nat) (lockout : Bool) : State :=
  (s.took (.setFeeder f.val cls pickup lockout)).setFeeder f
    { s.feeder f with cls := cls, pickup := pickup, lockout := lockout }

section
variable {s : State} (f : FeederNo) (cls pickup : Nat) (lockout : Bool)

theorem State.feeder_feederWritten_same : (s.feederWritten f cls pickup lockout).feeder f
    = { s.feeder f with cls := cls, pickup := pickup, lockout := lockout } :=
  State.feeder_setFeeder_same _ f _

theorem State.feeder_feederWritten_ne {g : FeederNo} (other : g ≠ f) :
    (s.feederWritten f cls pickup lockout).feeder g = s.feeder g :=
  State.feeder_setFeeder_ne (s.took (.setFeeder f.val cls pickup lockout)) _ other.symm

/-- Beside the record, only the judgement's naming, its telling and the AE's candidate may change. -/
theorem State.feederWritten_judged_frame {t : State}
    (judged : t = (s.feederWritten f cls pickup lockout).judgeCandidate.replied 0x24 []) :
    t = { s.replied 0x24 [] with
      events := t.events
      ae := { s.ae with candidate := t.ae.candidate }
      se := { s.se with feeders := t.se.feeders, naming := t.se.naming } } := by
  subst judged
  obtain same | ⟨k, named⟩ := State.judgeCandidate_cases (s.feederWritten f cls pickup lockout)
  · rw [same]; rfl
  · rw [named]; rfl

variable {cls pickup}

theorem State.cmdSetFeeder_inRange (hcls : cls ≤ 3) (hpickup : pickup ≤ 16000) :
    s.cmdSetFeeder f.val cls pickup lockout = done []
      (if (s.feeder f).lockout && !lockout
        then (s.setFeeder f { s.feeder f with cls := cls, pickup := pickup, lockout := lockout }).judgeCandidate
        else s.setFeeder f { s.feeder f with cls := cls, pickup := pickup, lockout := lockout }) := by
  simp only [State.cmdSetFeeder, index?_val]
  exact if_neg (by omega)

theorem exec_setFeeder_kept (run : s.inReset = false) (hcls : cls ≤ 3) (hpickup : pickup ≤ 16000)
    (kept : (s.feeder f).lockout = false ∨ lockout = true) :
    exec (.setFeeder f.val cls pickup lockout) s = .next ((s.feederWritten f cls pickup lockout).replied 0x24 []) := by
  have notCleared : ¬ ((s.feeder f).lockout && !lockout) = true := by
    obtain open_ | locks := kept
    · simp [open_]
    · simp [locks]
  rw [exec_setFeeder _ _ _ _ run, State.cmdSetFeeder_inRange f lockout hcls hpickup, State.feeder_took,
    if_neg notCleared, done_leaves]
  rfl

theorem exec_setFeeder_cleared (run : s.inReset = false) (hcls : cls ≤ 3) (hpickup : pickup ≤ 16000)
    (locked : (s.feeder f).lockout = true) {t : State} (judgement : (s.feederWritten f cls pickup false).judgeCandidate = t) :
    exec (.setFeeder f.val cls pickup false) s = .next (t.replied 0x24 []) := by
  have cleared : ((s.feeder f).lockout && !false) = true := by simp [locked]
  rw [exec_setFeeder _ _ _ _ run, State.cmdSetFeeder_inRange f false hcls hpickup, State.feeder_took,
    if_pos cleared, done_leaves, ← judgement]
  rfl

end

/-! ## RESET ROTATION (R55) -/

section
variable {s : State}

theorem exec_resetRotation_refused {feeder : Nat} (run : s.inReset = false) (beyond : 24 ≤ feeder) (one : feeder ≠ 255) :
    exec (.resetRotation feeder) s = .next ((s.took (.resetRotation feeder)).repliedRefused 0x26 .outOfRange) := by
  rw [exec_resetRotation _ run, State.cmdResetRotation, if_neg one, index?_of_le beyond]
  rfl

theorem exec_resetRotation_one (run : s.inReset = false) (f : FeederNo) :
    exec (.resetRotation f.val) s = .next
      (((s.took (.resetRotation f.val)).setFeeder f { s.feeder f with shedSeconds := 0 }).replied 0x26 []) := by
  have one : f.val ≠ 255 := by omega
  rw [exec_resetRotation _ run, State.cmdResetRotation, if_neg one, index?_val]
  rfl

/-- The Feeder File with every feeder's shed seconds cleared. -/
def State.unrotatedFeeders (s : State) : Vector Feeder 24 := mapTable (fun _ r => r.unrotated) s.se.feeders

theorem State.getElem_unrotatedFeeders (s : State) (f : FeederNo) :
    s.unrotatedFeeders[f] = { s.feeder f with shedSeconds := 0 } :=
  getElem_mapTable _ _ f

theorem exec_resetRotation_all (run : s.inReset = false) :
    exec (.resetRotation 255) s = .next
      { (s.took (.resetRotation 255)).replied 0x26 [] with se := { s.se with feeders := s.unrotatedFeeders } } := by
  rw [exec_resetRotation _ run, State.cmdResetRotation, if_pos rfl]
  rfl

end

/-- Settles O30, by whether SET FEEDER clears a lockout: only then is the written state judged (R52, R68). -/
theorem setFeederAndResetRotationWriteTheirFields : Obligations.SetFeederAndResetRotationWriteTheirFields := by
  intro s run
  refine ⟨fun feeder cls pickup lockout => ⟨fun out => ?refused, ?written⟩,
    fun feeder => ⟨exec_resetRotation_refused run, ?one, ?all⟩⟩
  case refused =>
    rw [exec_setFeeder _ _ _ _ run, State.cmdSetFeeder_refused lockout _ out]
    rfl
  case one =>
    rintro f rfl
    exact exec_resetRotation_one run f
  case all =>
    rintro rfl
    exact ⟨_, exec_resetRotation_all run, s.getElem_unrotatedFeeders, rfl⟩
  case written =>
    rintro f rfl hcls hpickup
    by_cases kept : (s.feeder f).lockout = false ∨ lockout = true
    case pos =>
      refine ⟨_, exec_setFeeder_kept f lockout run hcls hpickup kept, State.feeder_feederWritten_same f cls pickup lockout,
        fun g other => State.feeder_feederWritten_ne f cls pickup lockout other, rfl, fun _ => rfl, fun locked cleared => ?_⟩
      simp [locked, cleared] at kept
    case neg =>
      obtain ⟨locked, rfl⟩ : (s.feeder f).lockout = true ∧ lockout = false := by simpa using kept
      have leaves {t : State} := exec_setFeeder_cleared f run hcls hpickup locked (t := t)
      refine ⟨_, leaves rfl, ?record, fun g other => ?others, ?frame, fun same => absurd same kept,
        fun _ _ => ⟨fun k judging first covered => leaves (State.judgeCandidate_names judging first covered), ?unnamed⟩⟩
      case record => exact (State.feeder_judgeCandidate _ f).trans (State.feeder_feederWritten_same f cls pickup false)
      case others => exact (State.feeder_judgeCandidate _ g).trans (State.feeder_feederWritten_ne f cls pickup false other)
      case frame => exact State.feederWritten_judged_frame f cls pickup false rfl
      case unnamed =>
        rintro (resting | nothing | ⟨k, first, short⟩)
        · exact leaves (State.judgeCandidate_of_not_judging resting)
        · exact leaves (State.judgeCandidate_of_no_candidate nothing)
        · exact leaves (State.judgeCandidate_of_short first short)

end Sys2Proof.Machine

/-! # The curtailment targets: shares of the ceiling (R123) -/

namespace Sys2Proof.Machine

/-! ## Sums that round down -/

theorem sumOver_cons {α : Type} (f : α → Nat) (x : α) (l : List α) : sumOver f (x :: l) = f x + sumOver f l := rfl

theorem sumOver_le_sumOver {α : Type} {f g : α → Nat} {l : List α} (below : ∀ x ∈ l, f x ≤ g x) :
    sumOver f l ≤ sumOver g l := by
  induction l with
  | nil => exact Nat.le_refl 0
  | cons x l ih =>
    rw [sumOver_cons, sumOver_cons]
    exact Nat.add_le_add (below x List.mem_cons_self) (ih fun y mem => below y (List.mem_cons_of_mem x mem))

/-- Dropping the fraction of each part loses no less than dropping that of the whole. -/
theorem sumOver_mul_div_le {α : Type} (w : α → Nat) (c total : Nat) (l : List α) :
    sumOver (fun x => c * w x / total) l ≤ c * sumOver w l / total := by
  induction l with
  | nil => exact Nat.zero_le _
  | cons x l ih =>
    calc sumOver (fun x => c * w x / total) (x :: l)
        ≤ c * w x / total + c * sumOver w l / total := Nat.add_le_add_left ih _
      _ ≤ (c * w x + c * sumOver w l) / total := Nat.div_add_div_le_add_div
      _ = c * sumOver w (x :: l) / total := by rw [sumOver_cons, Nat.mul_add]

/-- Shares in proportion to weights, each rounded down, sum to no more than what is shared. -/
theorem sumOver_shares_le {α : Type} (w : α → Nat) (c : Nat) (l : List α) :
    sumOver (fun x => c * w x / sumOver w l) l ≤ c :=
  calc sumOver (fun x => c * w x / sumOver w l) l
      ≤ c * sumOver w l / sumOver w l := sumOver_mul_div_le w c _ l
    _ ≤ c := Nat.div_le_of_le_mul (Nat.mul_comm c _).le

/-! ## The target of a defined array in ENGAGED and DISENGAGING -/

section
variable {s : State} {a : ArrayNo} {d : ArrayDef}

/-- Whether an array has a share of the ceiling: enabled in the active bank, of a weight there, and reachable (R123). -/
def State.sharesCeiling (s : State) (a : ArrayNo) : Prop :=
  (s.share a).enabled = true ∧ (s.share a).weight ≠ 0 ∧ s.reachable a = true

/-- What an array adds to the sum of the weights (R123). -/
def State.weightOf (s : State) (a : ArrayNo) : Nat :=
  if (s.share a).enabled && s.reachable a then (s.share a).weight else 0

theorem State.weights_eq (s : State) : s.weights = sumOver s.weightOf s.definedArrays := rfl

theorem State.weightOf_sharing (sharing : s.sharesCeiling a) : s.weightOf a = (s.share a).weight := by
  obtain ⟨enabled, -, reached⟩ := sharing
  exact if_pos (by rw [enabled, reached]; rfl)

theorem State.definition_of_mem_definedArrays (mem : a ∈ s.definedArrays) : ∃ d, (s.array a).definition = some d :=
  Option.isSome_iff_exists.mp (List.mem_filter.mp mem).2

/-- Both capping states work the target out alike. -/
theorem State.targetOf_capping (capping : s.cu.state = .engaged ∨ s.cu.state = .disengaging)
    (defined : (s.array a).definition = some d) :
    s.targetOf a = some (.kw (if (s.share a).enabled && s.reachable a && (s.share a).weight != 0
      then min (s.share a).limit (min d.nameplate (s.ceiling * (s.share a).weight / s.weights)) else 0)) := by
  obtain state | state := capping <;> simp only [State.targetOf, defined, state]

theorem State.targetOf_sharing (capping : s.cu.state = .engaged ∨ s.cu.state = .disengaging)
    (defined : (s.array a).definition = some d) (sharing : s.sharesCeiling a) :
    s.targetOf a = some (.kw (min (s.share a).limit (min d.nameplate (s.ceiling * (s.share a).weight / s.weights)))) := by
  obtain ⟨enabled, weighs, reached⟩ := sharing
  rw [State.targetOf_capping capping defined, if_pos (by simp [enabled, weighs, reached])]

theorem State.targetOf_not_sharing (capping : s.cu.state = .engaged ∨ s.cu.state = .disengaging)
    (defined : (s.array a).definition = some d) (excluded : ¬ s.sharesCeiling a) : s.targetOf a = some (.kw 0) := by
  rw [State.targetOf_capping capping defined, if_neg]
  intro all
  simp only [Bool.and_eq_true, bne_iff_ne] at all
  obtain ⟨⟨enabled, reached⟩, weighs⟩ := all
  exact excluded ⟨enabled, weighs, reached⟩

/-- No defined array's target is above its share of the ceiling, whatever its station limit and nameplate. -/
theorem State.targetOf_level_le_share (capping : s.cu.state = .engaged ∨ s.cu.state = .disengaging)
    (defined : (s.array a).definition = some d) :
    ((s.targetOf a).getD .unheld).level (s.array a).nameplate ≤ s.ceiling * s.weightOf a / s.weights := by
  by_cases sharing : s.sharesCeiling a
  · rw [State.targetOf_sharing capping defined sharing, State.weightOf_sharing sharing]
    exact (Nat.min_le_right _ _).trans (Nat.min_le_right _ _)
  · rw [State.targetOf_not_sharing capping defined sharing]
    exact Nat.zero_le _

end

/-- The last sentence of R123. -/
theorem State.sumOver_targetOf_le_ceiling {s : State} (capping : s.cu.state = .engaged ∨ s.cu.state = .disengaging) :
    sumOver (fun a => ((s.targetOf a).getD .unheld).level (s.array a).nameplate) s.definedArrays ≤ s.ceiling := by
  have below_share : ∀ a ∈ s.definedArrays,
      ((s.targetOf a).getD .unheld).level (s.array a).nameplate ≤ s.ceiling * s.weightOf a / s.weights := by
    intro a mem
    obtain ⟨d, defined⟩ := State.definition_of_mem_definedArrays mem
    exact State.targetOf_level_le_share capping defined
  calc sumOver (fun a => ((s.targetOf a).getD .unheld).level (s.array a).nameplate) s.definedArrays
      ≤ sumOver (fun a => s.ceiling * s.weightOf a / s.weights) s.definedArrays := sumOver_le_sumOver below_share
    _ ≤ s.ceiling := by
      rw [s.weights_eq]
      exact sumOver_shares_le s.weightOf s.ceiling s.definedArrays

/-- Settles O45, by whether the array shares the ceiling; the sum is bounded by the shares, which round down. -/
theorem targetsShareTheCeilingAndStayUnderIt : Obligations.TargetsShareTheCeilingAndStayUnderIt := by
  intro s capping
  exact ⟨fun _ _ defined => ⟨State.targetOf_not_sharing capping defined, State.targetOf_sharing capping defined⟩,
    State.sumOver_targetOf_le_ceiling capping⟩

end Sys2Proof.Machine

/-! # The Station Port's output pins and its Notice Set (R163, R179, R181, R184, R185, R193) -/

namespace Sys2Proof.Machine

/-! ## Marks packed as the bits of a number -/

theorem flagsOf_cons (b : Bool) (l : List Bool) : flagsOf (b :: l) = Nat.bit b (flagsOf l) := by
  rw [Nat.bit_val, Nat.add_comm]
  cases b <;> rfl

theorem flagsOf_lt (l : List Bool) : flagsOf l < 2 ^ l.length := by
  induction l with
  | nil => exact Nat.one_pos
  | cons b l ih => rw [flagsOf_cons]; exact Nat.bit_lt_two_pow_succ_iff.mpr ih

theorem testBit_flagsOf (l : List Bool) (k : Nat) : (flagsOf l).testBit k = l.getD k false := by
  induction l generalizing k with
  | nil => exact Nat.zero_testBit k
  | cons b l ih =>
    rw [flagsOf_cons]
    cases k with
    | zero => exact Nat.testBit_bit_zero b _
    | succ k => exact (Nat.testBit_bit_succ k b _).trans (ih k)

/-! ## A notice and its bit -/

/-- The notice of a bit, in the order of 09 section 9.6. -/
def bitNotice : Fin 15 → Notice :=
  ![.shortfall, .ladderExhausted, .revokeFailed, .unitLost, .unpermittedClose, .overdraw, .startFailed, .gensetTripped,
    .curtailEngaged, .curtailReleased, .islandState, .restartFailed, .foreignLive, .standDownComplete, .queueRefusal]

theorem bitNotice_noticeBit (n : Notice) : bitNotice (noticeBit n) = n := by cases n <;> rfl

theorem noticeBit_bitNotice : ∀ k, noticeBit (bitNotice k) = k := by decide

theorem noticeBit_inj {m n : Notice} : noticeBit m = noticeBit n ↔ m = n :=
  (Function.LeftInverse.injective bitNotice_noticeBit).eq_iff

theorem exists_notice_iff {p : Notice → Prop} : (∃ n, p n) ↔ ∃ k, p (bitNotice k) :=
  (Function.LeftInverse.surjective bitNotice_noticeBit).exists

/-! ## The output pins -/

section
variable (s : State)

theorem State.flagged_bitNotice (k : Fin 15) : s.flagged (bitNotice k) = s.sp.notices[k] :=
  congrArg (fun bit : Fin 15 => s.sp.notices[bit]) (noticeBit_bitNotice k)

/-- ATTN looks at the bits of the register; every bit is some notice's. -/
theorem State.attnLow_iff : s.attnLow = true ↔ ∃ n, s.flagged n = true :=
  calc s.attnLow = true
      ↔ ∃ k : Fin 15, s.sp.notices[k] = true := by simp [State.attnLow, Vector.any_eq_true, Fin.exists_iff]
    _ ↔ ∃ k, s.flagged (bitNotice k) = true := by simp only [State.flagged_bitNotice]
    _ ↔ ∃ n, s.flagged n = true := by rw [exists_notice_iff]

theorem State.ready_iff : s.ready = true ↔ s.inReset = false ∧ s.sp.executing = none := by
  simp [State.ready]

theorem State.lde_iff : s.lde = true ↔ ∃ turn frame, s.flc.loop = .sending turn frame := by
  unfold State.lde
  cases s.flc.loop <;> simp

theorem State.misoDriven_iff : s.misoDriven = true ↔ s.pins.csLow = true ∧ s.inReset = false := by
  simp [State.misoDriven]

variable {s}

theorem State.misoByte_of_not_driven (k : Nat) (off : s.pins.csLow = false ∨ s.inReset = true) : s.misoByte k = none := by
  refine if_neg fun driven => ?_
  obtain ⟨low, run⟩ := s.misoDriven_iff.mp driven
  simp [low, run] at off

theorem State.misoByte_of_driven (k : Nat) {x : Transaction} (low : s.pins.csLow = true) (run : s.inReset = false)
    (under : s.sp.transaction = some x) : s.misoByte k = some (x.frame.getD k 0xFF) := by
  rw [State.misoByte, if_pos (s.misoDriven_iff.mpr ⟨low, run⟩), under]
  rfl

end

/-! ## Raising and clearing flags -/

section
variable (s : State)

theorem State.flagged_raiseFlag (n m : Notice) : (s.raiseFlag n).flagged m = (m == n || s.flagged m) := by
  simp only [State.flagged, State.raiseFlag_sp]
  by_cases same : m = n
  · subst same; simp
  · have other : (noticeBit n).val ≠ (noticeBit m).val := fun e => same (noticeBit_inj.mp (Fin.ext e)).symm
    simp [same, other]

theorem State.attnLow_raiseFlag (n : Notice) : (s.raiseFlag n).attnLow = true :=
  (State.attnLow_iff _).mpr ⟨n, by simp [State.flagged_raiseFlag]⟩

theorem State.attnLow_clearFlags : s.clearFlags.attnLow = false := by
  simp [State.attnLow]

/-! ## The answer of READ NOTICES -/

/-- The Notice Set as the number whose bits are the flags (09 section 9.6). -/
def State.noticeSet (s : State) : Nat := flagsOf s.sp.notices.toList

theorem State.noticeBytes_eq : s.noticeBytes = [byteOf s.noticeSet, byteOf (s.noticeSet / 256)] := rfl

theorem State.testBit_noticeSet (k : Fin 15) : s.noticeSet.testBit k.val = s.sp.notices[k] := by
  rw [State.noticeSet, testBit_flagsOf]
  simp

/-- Bit 15 is 0. -/
theorem State.noticeSet_lt : s.noticeSet < 32768 := by
  simpa [State.noticeSet] using flagsOf_lt s.sp.notices.toList

variable {s}

theorem exec_readNotices_replied (run : s.inReset = false) :
    exec .readNotices s = .next ((s.took .readNotices).clearFlags.replied 0x03
      [byteOf s.noticeSet, byteOf (s.noticeSet / 256)]) := by
  rw [exec_readNotices run, State.cmdReadNotices, done_leaves, State.noticeBytes_eq]
  rfl

end

/-- Settles O12: each pin by its own equivalence; the flags by the bits of the Notice Set, read before they are cleared. -/
theorem noticesAreRaisedReadAndCleared : Obligations.NoticesAreRaisedReadAndCleared := by
  refine ⟨fun s => ⟨s.attnLow_iff, s.ready_iff, s.lde_iff, s.misoDriven_iff, State.misoByte_of_not_driven,
    fun k _ => State.misoByte_of_driven k⟩, fun s run => ⟨fun n => ?raised, ?read⟩⟩
  case raised =>
    exact ⟨(s.took (.noticeRaise n)).raiseFlag n, exec_noticeRaise n run, rfl, State.flagged_raiseFlag _ n,
      State.attnLow_raiseFlag _ n⟩
  case read =>
    have small := s.noticeSet_lt
    have reads_back := Laws.two_bytes (n := s.noticeSet) (by omega)
    have high : (byteOf (s.noticeSet / 256)).toNat = s.noticeSet / 256 := Laws.byteOf_toNat (by omega)
    refine ⟨_, _, _, exec_readNotices_replied run, rfl, ?flags, ?top, (s.took .readNotices).attnLow_clearFlags⟩
    case flags => exact fun k => by rw [reads_back, s.testBit_noticeSet]
    case top => omega

end Sys2Proof.Machine
